-- ==== Sys2Proof/Word.lean ====
section
/-! DEFINITION. The bit-vector types of the block: a byte of the frame, the command word and its two fields, the
output latch (spec/30_encoding.md R80, R85; spec/10_state.md R28). -/

namespace Sys2Proof

/-- One byte of the sensor's frame, and the width of SHREG, H_STG, T_STG, HUM and TEMP (R8, R22). -/
abbrev Byte := BitVec 8

/-- A command code, bits 2:0 of the command word, port `cmd` (R80). -/
abbrev CmdCode := BitVec 3

/-- A soil-moisture code, bits 18:3 of the command word, port `operand` (R80, R83). -/
abbrev Soil := BitVec 16

/-- A command word `cw[18:0]` (R80). -/
abbrev CmdWord := BitVec 19

/-- The five output lines of OUT: bit 0 safe, 1 warn, 2 danger, 3 buzzer, 4 pump (R28, R91). -/
abbrev OutLatch := BitVec 5

end Sys2Proof
end

