-- ==== Sys2Proof/Config.lean ====
section
/-! DEFINITION. What an implementation fixes (the static parameters of spec/00_scope.md R5 to R10) and the free
values: the input ports of spec/10_state.md R20 at the ticks that no list of inputs covers. -/

namespace Sys2Proof

/-- RISE_MODE (R9): what ends a wait for the line to rise. -/
inductive RiseMode where
  /-- The line is 1 and was 0 at the tick before. -/
  | edge
  /-- The line is 1. -/
  | level
deriving DecidableEq, Repr

/-- The configuration record of R5 to R10. "Every parameter is static: fixed when the block is built, never written
at run time" (spec/00_scope.md section 4). Durations are in ticks of 1 µs. -/
structure Config where
  /-- T_START_LOW (R6). -/
  tStartLow : Nat
  /-- T_START_HIGH (R6). -/
  tStartHigh : Nat
  /-- T_GUARD (R6). -/
  tGuard : Nat
  /-- T_RESP (R6). -/
  tResp : Nat
  /-- T_SAMPLE (R6). -/
  tSample : Nat
  /-- SOIL_THRESHOLD (R7). -/
  soilThreshold : Soil
  /-- TEMP_LIMIT (R7). -/
  tempLimit : Byte
  /-- TMR_W, the width of the timer TMR (R8, R33). -/
  tmrW : Nat
  /-- RISE_MODE (R9). -/
  riseMode : RiseMode
  /-- WAIT_TIMEOUT (R10), 0 for unbounded waits. OPEN: "a model takes it as an argument". -/
  waitTimeout : Nat
deriving DecidableEq, Repr

/-- The defaults of R6 to R10, "the values this hardware takes". -/
def Config.defaults : Config where
  tStartLow := 18000
  tStartHigh := 30
  tGuard := 40
  tResp := 80
  tSample := 30
  soilThreshold := 700
  tempLimit := 25
  tmrW := 15
  riseMode := .edge
  waitTimeout := 0

/-- The input ports of R20 at one tick. -/
structure Inputs where
  /-- `rst`, synchronous reset, active high. -/
  rst : Bool
  /-- `cmd_valid`: the host presents a command word at this tick. -/
  cmdValid : Bool
  /-- `cmd`, bits 2:0 of the command word. -/
  cmd : CmdCode
  /-- `operand`, bits 18:3 of the command word. -/
  operand : Soil
  /-- `line_in`, the level of the sensor line; `true` is high. -/
  line : Bool
deriving DecidableEq, Repr, Inhabited

/-- FREE VALUE (log entry 1): the inputs of tick `k` where the state lists none. R13 puts the host and the line
under no law, and 93_implementation_defined.md U13 and U14 treat them as any value: nothing constrains this. -/
opaque Config.freeInputs : Nat → Inputs

end Sys2Proof
end

