-- ==== Sys2Proof/Syntax.lean ====
section
/-! DEFINITION. The commands: one constructor per row of spec/opcode_table.json (spec/30_encoding.md R82). -/

namespace Sys2Proof

/-- A command of R82. Only ACT has an operand (format CW1, R81); the operand bits of the others are not read. -/
inductive Instr where
  /-- Code 0b000 (R113). -/
  | nop
  /-- Code 0b001, MP's `start()` (R135). -/
  | start
  /-- Code 0b010, MP's `checkResponse()` (R136). -/
  | check
  /-- Code 0b011, MP's `readByte()` (R137). -/
  | rdbyte
  /-- Code 0b100, the acquisition of one reading (R138). -/
  | sample
  /-- Code 0b101, the push of the actuator outputs, with the soil code (R163). -/
  | act (soil : Soil)
  /-- Code 0b110, reserved (R114). -/
  | rsv6
  /-- Code 0b111, reserved (R114). -/
  | rsv7
deriving DecidableEq, Repr

end Sys2Proof
end

