-- ==== Sys2Proof/WellFormed.lean ====
section
/-! DEFINITION. Well-formedness: of a command (its types carry every range, so every term is well formed), of a
number taken as a command word (spec/30_encoding.md R80), and of a configuration (spec/00_scope.md R6, R10, R11). -/

namespace Sys2Proof

/-- Every command term is well formed: R83 gives every 16-bit soil code a meaning and R84 knows no illegal command. -/
def Instr.wf : Instr → Bool
  | .nop => true
  | .start => true
  | .check => true
  | .rdbyte => true
  | .sample => true
  | .act _ => true
  | .rsv6 => true
  | .rsv7 => true

/-- A number is a command word when it fits in 19 bits (R80). -/
def wordFits (w : Nat) : Bool := decide (w < 2 ^ 19)

/-- T_START_LOW is 1 to 2^TMR_W (R6, R11). -/
def Config.startLowOk (c : Config) : Bool := decide (1 ≤ c.tStartLow) && decide (c.tStartLow - 1 < 2 ^ c.tmrW)

/-- T_START_HIGH is 20 to 40 (R6) and fits the timer (R11). -/
def Config.startHighOk (c : Config) : Bool :=
  decide (20 ≤ c.tStartHigh) && decide (c.tStartHigh ≤ 40) && decide (c.tStartHigh - 1 < 2 ^ c.tmrW)

/-- T_GUARD is 1 to 2^TMR_W - 1 (R6, R11). -/
def Config.guardOk (c : Config) : Bool := decide (1 ≤ c.tGuard) && decide (c.tGuard < 2 ^ c.tmrW)

/-- T_RESP is 1 to 2^TMR_W (R6, R11). -/
def Config.respOk (c : Config) : Bool := decide (1 ≤ c.tResp) && decide (c.tResp - 1 < 2 ^ c.tmrW)

/-- T_SAMPLE is 1 to 2^TMR_W (R6); R11 asks the same of it. -/
def Config.sampleOk (c : Config) : Bool := decide (1 ≤ c.tSample) && decide (c.tSample - 1 < 2 ^ c.tmrW)

/-- WAIT_TIMEOUT is 0 to 2^TMR_W (R10, R11). -/
def Config.waitOk (c : Config) : Bool := decide (c.waitTimeout ≤ 2 ^ c.tmrW)

/-- The constraints a configuration must meet: R11, with the legal ranges of R6 and R10 (log entry 4). -/
def Config.ok (c : Config) : Bool :=
  c.startLowOk && c.startHighOk && c.guardOk && c.respOk && c.sampleOk && c.waitOk

end Sys2Proof
end

