-- ==== Sys2Proof/Decode.lean ====
section
/-! DEFINITION. Decoding and encoding of the command word (spec/30_encoding.md R80 to R84, R92). -/

namespace Sys2Proof

/-- `cw[2:0]`, the command code (R80). -/
def codeField (cw : CmdWord) : CmdCode := cw.extractLsb' 0 3

/-- `cw[18:3]`, the operand (R80, R83). -/
def operandField (cw : CmdWord) : Soil := cw.extractLsb' 3 16

/-- The word whose fields are given (R80; R92: `(operand << 3) | code`). -/
def wordOf (operand : Soil) (code : CmdCode) : CmdWord := operand ++ code

/-- The opcode map of R82: only the code selects the command (R81, R84). All eight codes are listed. -/
def decodeFields (code : CmdCode) (operand : Soil) : Instr :=
  match code.toFin with
  | 0 => .nop
  | 1 => .start
  | 2 => .check
  | 3 => .rdbyte
  | 4 => .sample
  | 5 => .act operand
  | 6 => .rsv6
  | 7 => .rsv7

/-- The command a 19-bit word spells. Every word spells one: "No encoding is illegal" (R84). -/
def decodeWord (cw : CmdWord) : Instr := decodeFields (codeField cw) (operandField cw)

/-- Why a number is not decoded. -/
inductive DecodeRefusal where
  /-- The number needs more than the 19 bits of a command word (R80). Raised by `decode` alone, never by the machine,
  whose ports carry 19 bits. Safe: the spec gives such a number no meaning. -/
  | wordTooWide
deriving DecidableEq, Repr

/-- The command a number spells as a command word, or the reason it spells none (log entry 9). -/
def decode (w : Nat) : Except DecodeRefusal Instr :=
  if wordFits w then .ok (decodeWord (BitVec.ofNat 19 w)) else .error .wordTooWide

/-- The code of a command (R82). -/
def Instr.code : Instr → CmdCode
  | .nop => 0b000
  | .start => 0b001
  | .check => 0b010
  | .rdbyte => 0b011
  | .sample => 0b100
  | .act _ => 0b101
  | .rsv6 => 0b110
  | .rsv7 => 0b111

/-- The operand bits of a command's canonical word: 0 where the format has no operand (R81). -/
def Instr.operand : Instr → Soil
  | .nop => 0
  | .start => 0
  | .check => 0
  | .rdbyte => 0
  | .sample => 0
  | .act soil => soil
  | .rsv6 => 0
  | .rsv7 => 0

/-- The canonical word of a command (R81, R92). -/
def encode (i : Instr) : CmdWord := wordOf i.operand i.code

/-- The command read from the `nbits` bits `w` of an opcode-table row, every bit above them 0. -/
def decodeTableWord (nbits w : Nat) : Option Instr :=
  match decode (w % 2 ^ nbits) with
  | .ok i => some i
  | .error _ => none

end Sys2Proof
end

