-- ==== Sys2Proof/Machine/State.lean ====
section
/-! DEFINITION. The state of the block: the registers of spec/10_state.md R43, and the arguments of the step relation
(spec/00_scope.md R16), which stand in State because the host's step takes a State alone. -/

namespace Sys2Proof.Machine

/-- PHASE, the position of the sequencer (R29). The numeric codes of R90 are in Machine/Ports.lean. -/
inductive Phase where
  /-- Code 0: waiting for a command (R133). -/
  | idle
  /-- Code 1: driving the line low (R121). -/
  | startLow
  /-- Code 2: driving the line high (R122). -/
  | startHigh
  /-- Code 3: the guard delay and the first response sample (R123). -/
  | respGuard
  /-- Code 4: the second response sample (R124). -/
  | respWait
  /-- Code 5: the wait for a rise (R125). -/
  | bitRise
  /-- Code 6: the sample delay and the sample (R127). -/
  | bitDelay
  /-- Code 7: the wait for the line to be low (R128). -/
  | bitFall
deriving DecidableEq, Repr

/-- The registers of R43, all of them. -/
structure Regs where
  /-- PHASE (R29). -/
  phase : Phase
  /-- SEQ: the running operation is SAMPLE (R30). -/
  seq : Bool
  /-- TMR, the phase timer, a number below 2^TMR_W (R33; log entry 5). -/
  tmr : Nat
  /-- BITCNT: bit slots completed in the current byte (R31). -/
  bitcnt : BitVec 3
  /-- BYTECNT: frame bytes completed in the current or last SAMPLE (R32). -/
  bytecnt : BitVec 3
  /-- SHREG, the byte shifter (R23). -/
  shreg : Byte
  /-- H_STG, the staged humidity byte (R24). -/
  hStg : Byte
  /-- T_STG, the staged temperature byte (R25). -/
  tStg : Byte
  /-- HUM, the last good humidity (R26). -/
  hum : Byte
  /-- TEMP, the last good temperature (R27). -/
  temp : Byte
  /-- VALID: the last SAMPLE that ended delivered a reading (R35). -/
  valid : Bool
  /-- RESP_OK, the result of the last response check (R36). -/
  respOk : Bool
  /-- TMO: the last RDBYTE or SAMPLE ended by a wait timeout (R37). -/
  tmo : Bool
  /-- PREV, the line one tick ago (R39). -/
  prev : Bool
  /-- OUT, the actuator output latch (R28). -/
  out : OutLatch
deriving DecidableEq, Repr

/-- The machine. `regs` is the spec's state (R43, R44); the other three fields are the model's own and carry what R16
calls the arguments of the step relation. -/
structure State where
  /-- The registers of R43. -/
  regs : Regs
  /-- The static parameters (R5 to R10; log entry 3). No step writes them. -/
  cfg : Config
  /-- The inputs of the coming ticks, the current tick's first (R20; log entry 1). Past its end they are free. -/
  inputs : List Inputs
  /-- The number of the current tick (R12; log entry 2); it indexes the free inputs. -/
  tick : Nat
deriving DecidableEq, Repr

/-- Why the machine stops with a fault. There is no constructor: "Nothing in the block is a `fault` in the guide's
sense: there is no trap and no recorded fault bit" (spec/93_implementation_defined.md section 1; R180). Nobody raises
one; safe. -/
inductive Fault where
deriving DecidableEq, Repr

/-- Why the model refuses to go on. -/
inductive Refusal where
  /-- Raised by an arm of exec for an instruction without a meaning yet. No arm raises it now. Safe: the model stops. -/
  | notModelled (mnemonic : String)
  /-- Raised by the step when the configuration breaks a constraint of R6 or R11: "A configuration that breaks a
  constraint is refused: this spec gives it no meaning" (R11; 93 U16). Safe: the model stops. -/
  | illegalConfiguration
deriving DecidableEq, Repr

/-- The registers after a tick with `rst` = 1: the table of R43. -/
def Regs.reset : Regs where
  phase := .idle
  seq := false
  tmr := 0
  bitcnt := 0
  bytecnt := 0
  shreg := 0
  hStg := 0
  tStg := 0
  hum := 0
  temp := 0
  valid := false
  respOk := false
  tmo := false
  prev := true
  out := 0b00000

/-- The machine right after reset, where a run begins (R210): the registers of R43, the default parameters (R6 to
R10), no input listed (log entry 1), tick 0 (log entry 2). -/
def State.reset : State where
  regs := Regs.reset
  cfg := Config.defaults
  inputs := []
  tick := 0

end Sys2Proof.Machine
end

