-- ==== Sys2Proof/Machine/Operands.lean ====
section
/-! DEFINITION. What a tick reads from outside: the input ports (spec/10_state.md R20), the line level `lin`, the
presented command word and ACT's operand (spec/30_encoding.md R80, R83). -/

namespace Sys2Proof.Machine

/-- The inputs `j` ticks from now: the listed ones, past their end the free ones (R13, R16; log entry 1). -/
def State.inputAt (s : State) (j : Nat) : Inputs :=
  match s.inputs[j]? with
  | some inp => inp
  | none => Config.freeInputs (s.tick + j)

/-- The inputs of the current tick (R20). -/
def State.input (s : State) : Inputs := s.inputAt 0

/-- `lin`, the line level at the current tick, the block's one read of the outside (R15, R61). -/
def State.lin (s : State) : Bool := s.input.line

/-- The command word on the ports: `cmd` is bits 2:0, `operand` bits 18:3 (R20, R80). -/
def presentedWord (inp : Inputs) : CmdWord := wordOf inp.operand inp.cmd

/-- The command the ports spell (R82, R110). -/
def presentedCommand (inp : Inputs) : Instr := decodeWord (presentedWord inp)

/-- ACT's operand: all 16 bits, unsigned, as they stand (R83, R163). -/
def soilOperand (operand : Soil) : Nat := operand.toNat

end Sys2Proof.Machine
end

