-- ==== Sys2Proof/Machine/Flags.lean ====
section
/-! DEFINITION. The flags VALID, RESP_OK and TMO (spec/10_state.md R35 to R37), the edge detector's predicate
(spec/41_sensorlink.md R126), and the two abnormal outcomes with the flags each writes (R131, R132; R180). -/

namespace Sys2Proof.Machine

/-- `rise` of R126: in mode `edge`, high now and low one tick ago; in mode `level`, high now. -/
def rise (mode : RiseMode) (prev lin : Bool) : Bool :=
  match mode with
  | .edge => lin && !prev
  | .level => lin

/-- The outcomes that end an operation other than well (X1 and X2 of R180). -/
inductive Abort where
  /-- X1: the line reads 1 at the first response sample or 0 at the second. -/
  | handshakeFail
  /-- X2: a wait saw WAIT_TIMEOUT ticks without its level. -/
  | waitTimeout
deriving DecidableEq, Repr

/-- RESP_OK after an abort: 0 after a handshake failure (R131), kept by a timeout (R132). -/
def respOkAfter (a : Abort) (respOk : Bool) : Bool :=
  match a with
  | .handshakeFail => false
  | .waitTimeout => respOk

/-- TMO after an abort: kept by a handshake failure (R131), 1 after a timeout (R132). -/
def tmoAfter (a : Abort) (tmo : Bool) : Bool :=
  match a with
  | .handshakeFail => tmo
  | .waitTimeout => true

/-- VALID after an abort of either kind: 0 inside SAMPLE, else kept (R35, R131, R132). -/
def validAfter (seq valid : Bool) : Bool := if seq then false else valid

end Sys2Proof.Machine
end

