-- ==== Sys2Proof/Machine/Ops.lean ====
section
/-! DEFINITION. The operations the commands and the phases share: the end of a tick, reset, the timer, the shifter,
the waits, the aborts, the commit (spec/00_scope.md R12; spec/41_sensorlink.md R120 to R132; spec/70_reset_and_hazards.md
R210). Functions on `Regs` give every register but PREV its value at the next tick; `State.advance` then writes PREV. -/

namespace Sys2Proof.Machine

/-- The end of a tick without reset: the registers a rule computed, `PREV <- lin` (R39), and on to the next tick's
inputs (R12). -/
def State.advance (s : State) (r : Regs) : State :=
  { s with regs := { r with prev := s.lin }, inputs := s.inputs.tail, tick := s.tick + 1 }

/-- A tick with `rst` = 1 (R210): every register to its value of R43, nothing survives (R44). -/
def State.resetTick (s : State) : State :=
  { s with regs := Regs.reset, inputs := s.inputs.tail, tick := s.tick + 1 }

/-- Present a word at the current tick without reset. DESIGN CHOICE (log entry 8; unsafe for a claim about this state):
the spec leaves `line_in` at that tick free (93_implementation_defined.md U13). Where a level is listed it stays; where
none is listed the level is PREV, so right after reset, with no tick before, it is pinned to 1, PREV's reset value
(R43). -/
def State.present (s : State) (cw : CmdWord) : State :=
  let line := match s.inputs with
    | inp :: _ => inp.line
    | [] => s.regs.prev
  let inp : Inputs :=
    { rst := false, cmdValid := true, cmd := codeField cw, operand := operandField cw, line := line }
  { s with regs := { s.regs with phase := .idle }, inputs := inp :: s.inputs.tail }

/-- WLOAD of R115: what the two waits load into TMR. -/
def wload (c : Config) : Nat := if c.waitTimeout > 0 then c.waitTimeout - 1 else 0

/-- Enter a phase with TMR loaded (R120). -/
def Regs.enter (r : Regs) (p : Phase) (tmr : Nat) : Regs := { r with phase := p, tmr := tmr }

/-- The end of an operation: back to IDLE, the rest as it stands (R34, R227). -/
def Regs.finish (r : Regs) : Regs := { r with phase := .idle }

/-- A tick of a timed phase (R120): count down, or the end action when TMR reads 0. -/
def Regs.timed (r endAction : Regs) : Regs := if r.tmr ≠ 0 then { r with tmr := r.tmr - 1 } else endAction

/-- `SHREG <- {SHREG[6:0], lin}` (R23, R86). -/
def shiftIn (b : Byte) (lin : Bool) : Byte := (b.extractLsb' 0 7).concat lin

/-- ABORT ENTRY (R187): what `raise HandshakeFail` (R131) and `raise WaitTimeout` (R132) write, exactly. Nothing is
saved, and there is no return: the block is idle afterwards (R188). -/
def Regs.raise (r : Regs) (a : Abort) : Regs :=
  { r with
    respOk := respOkAfter a r.respOk
    tmo := tmoAfter a r.tmo
    valid := validAfter r.seq r.valid
    phase := .idle }

/-- A tick of a wait (R125, R128): the awaited level first, then the timeout (R186), then the count. With
WAIT_TIMEOUT = 0 it stays "for ever if need be". -/
def Regs.await (c : Config) (r : Regs) (arrived : Bool) (done : Regs) : Regs :=
  if arrived then done
  else if c.waitTimeout > 0 ∧ r.tmr = 0 then r.raise .waitTimeout
  else if c.waitTimeout > 0 then { r with tmr := r.tmr - 1 }
  else r

/-- The commit (R130): the staged reading becomes the reading, at one tick. -/
def Regs.commit (r : Regs) : Regs :=
  { r with hum := r.hStg, temp := r.tStg, valid := true, bytecnt := 5, phase := .idle }

/-- End of byte (R129): a standalone RDBYTE ends; inside SAMPLE bytes 0 and 2 are staged, the fifth byte commits. -/
def Regs.endOfByte (c : Config) (r : Regs) : Regs :=
  let r0 := { r with bitcnt := 0 }
  if r.seq then
    let r1 := { r0 with
      hStg := if r.bytecnt = 0 then r.shreg else r.hStg
      tStg := if r.bytecnt = 2 then r.shreg else r.tStg }
    if r.bytecnt = 4 then r1.commit
    else { r1 with bytecnt := r.bytecnt + 1 }.enter .bitRise (wload c)
  else r0.finish

/-- The end of a bit slot (R128): the next slot, or after the eighth the end of the byte. -/
def Regs.endOfSlot (c : Config) (r : Regs) : Regs :=
  if r.bitcnt = 7 then r.endOfByte c
  else { r with bitcnt := r.bitcnt + 1 }.enter .bitRise (wload c)

end Sys2Proof.Machine
end

