-- ==== Sys2Proof/Machine/Actuator.lean ====
section
/-! DEFINITION. The actuator multiplexer: the pure function Actuate and the meaning of ACT (spec/42_actuator.md R160
to R163). -/

namespace Sys2Proof.Machine

/-- The alarm tier (R91, R160). -/
inductive Tier where
  /-- Green only. -/
  | safe
  /-- Yellow only. -/
  | warning
  /-- Red and the audible alarm. -/
  | danger
deriving DecidableEq, Repr

/-- The tier comparator (R160): unsigned, Warning a single value wide. -/
def tier (c : Config) (t : Byte) : Tier :=
  if t.toNat < c.tempLimit.toNat then .safe
  else if t.toNat = c.tempLimit.toNat then .warning
  else .danger

/-- The pump comparator (R161): unsigned over all 16 bits, strict. -/
def pump (c : Config) (soil : Soil) : Bool := decide (soilOperand soil > c.soilThreshold.toNat)

/-- The indicator lines of a tier, bits 3:0 of OUT: buzzer, danger, warn, safe (R162). -/
def indicators (t : Tier) : BitVec 4 :=
  match t with
  | .safe => 0b0001
  | .warning => 0b0010
  | .danger => 0b1100

/-- The multiplexer `Actuate(t, s)` (R162). It reads no other register (R164) and not the old OUT (R165). -/
def actuate (c : Config) (t : Byte) (soil : Soil) : OutLatch :=
  (BitVec.ofBool (pump c soil) ++ indicators (tier c t) : BitVec (1 + 4))

/-- ACT (R163): `OUT <- Actuate(TEMP, operand)`. -/
def execAct (soil : Soil) (s : State) : Host.Outcome State Fault Refusal :=
  .next (s.advance { s.regs with out := actuate s.cfg s.regs.temp soil })

end Sys2Proof.Machine
end

