-- ==== Sys2Proof/Machine/Control.lean ====
section
/-! DEFINITION. The meanings of NOP and the two reserved codes (spec/40_dispatch.md R113, R114), at the tick of
acceptance. -/

namespace Sys2Proof.Machine

/-- "`PREV <- lin`; nothing else" (R113, R114). -/
def noEffect (s : State) : State := s.advance s.regs

/-- NOP (R113). -/
def execNop (s : State) : Host.Outcome State Fault Refusal := .next (noEffect s)

/-- Code 0b110: behaves exactly as NOP (R114; log entry 6). -/
def execRsv6 (s : State) : Host.Outcome State Fault Refusal := .next (noEffect s)

/-- Code 0b111: behaves exactly as NOP (R114; log entry 6). -/
def execRsv7 (s : State) : Host.Outcome State Fault Refusal := .next (noEffect s)

end Sys2Proof.Machine
end

