-- ==== Sys2Proof/Machine/SensorLink.lean ====
section
/-! DEFINITION. The meanings of START, CHECK, RDBYTE and SAMPLE at the tick of acceptance (spec/40_dispatch.md R115).
What follows acceptance, tick by tick, are the phase rules of Machine/Phases.lean (log entry 7). -/

namespace Sys2Proof.Machine

/-- START (R115, R135): the start signal. -/
def execStart (s : State) : Host.Outcome State Fault Refusal :=
  .next (s.advance ({ s.regs with seq := false }.enter .startLow (s.cfg.tStartLow - 1)))

/-- CHECK (R115, R136): the response detection. -/
def execCheck (s : State) : Host.Outcome State Fault Refusal :=
  .next (s.advance ({ s.regs with seq := false }.enter .respGuard s.cfg.tGuard))

/-- RDBYTE (R115, R137): eight bit slots into SHREG. -/
def execRdbyte (s : State) : Host.Outcome State Fault Refusal :=
  .next (s.advance ({ s.regs with seq := false, bitcnt := 0, tmo := false }.enter .bitRise (wload s.cfg)))

/-- SAMPLE (R115, R138): start signal, response check and a whole frame. -/
def execSample (s : State) : Host.Outcome State Fault Refusal :=
  .next (s.advance
    ({ s.regs with seq := true, bytecnt := 0, tmo := false }.enter .startLow (s.cfg.tStartLow - 1)))

end Sys2Proof.Machine
end

