-- ==== Sys2Proof/Machine/Dispatch.lean ====
section
/-! DEFINITION. The dispatch of an accepted command (spec/40_dispatch.md R115). -/

namespace Sys2Proof.Machine

def exec (i : Instr) (s : State) : Host.Outcome State Fault Refusal :=
  match i with
  | .nop => Sys2Proof.Machine.execNop s
  | .start => Sys2Proof.Machine.execStart s
  | .check => Sys2Proof.Machine.execCheck s
  | .rdbyte => Sys2Proof.Machine.execRdbyte s
  | .sample => Sys2Proof.Machine.execSample s
  | .act soil => Sys2Proof.Machine.execAct soil s
  | .rsv6 => Sys2Proof.Machine.execRsv6 s
  | .rsv7 => Sys2Proof.Machine.execRsv7 s

end Sys2Proof.Machine
end

