-- ==== Sys2Proof/Machine/Phases.lean ====
section
/-! DEFINITION. What the block does at a tick spent in each phase (spec/41_sensorlink.md section 1). -/

namespace Sys2Proof.Machine

/-- START_LOW (R121): T_START_LOW ticks of driving low, then START_HIGH. -/
def Regs.startLowTick (c : Config) (r : Regs) : Regs := r.timed (r.enter .startHigh (c.tStartHigh - 1))

/-- START_HIGH (R122): T_START_HIGH ticks of driving high, then on inside SAMPLE, else IDLE. -/
def Regs.startHighTick (c : Config) (r : Regs) : Regs :=
  r.timed (if r.seq then r.enter .respGuard c.tGuard else r.finish)

/-- RESP_GUARD (R123): the guard delay, then the first response sample, which must read 0. -/
def Regs.respGuardTick (c : Config) (lin : Bool) (r : Regs) : Regs :=
  r.timed (if lin then r.raise .handshakeFail else r.enter .respWait (c.tResp - 1))

/-- RESP_WAIT (R124): the second response sample, which must read 1. -/
def Regs.respWaitTick (c : Config) (lin : Bool) (r : Regs) : Regs :=
  r.timed
    (if lin then
      if r.seq then { r with respOk := true, bitcnt := 0 }.enter .bitRise (wload c)
      else { r with respOk := true }.finish
    else r.raise .handshakeFail)

/-- BIT_RISE (R125): the wait for the line to rise. -/
def Regs.bitRiseTick (c : Config) (lin : Bool) (r : Regs) : Regs :=
  r.await c (rise c.riseMode r.prev lin) (r.enter .bitDelay (c.tSample - 1))

/-- BIT_DELAY (R127): the sample delay, then the sample. -/
def Regs.bitDelayTick (c : Config) (lin : Bool) (r : Regs) : Regs :=
  r.timed ({ r with shreg := shiftIn r.shreg lin }.enter .bitFall (wload c))

/-- BIT_FALL (R128): the wait for the line to be low, then the end of the bit slot. -/
def Regs.bitFallTick (c : Config) (lin : Bool) (r : Regs) : Regs := r.await c (!lin) (r.endOfSlot c)

/-- The rule of the phase the block stands in. In IDLE without a command nothing is written (R133). -/
def Regs.phaseTick (c : Config) (lin : Bool) (r : Regs) : Regs :=
  match r.phase with
  | .idle => r
  | .startLow => r.startLowTick c
  | .startHigh => r.startHighTick c
  | .respGuard => r.respGuardTick c lin
  | .respWait => r.respWaitTick c lin
  | .bitRise => r.bitRiseTick c lin
  | .bitDelay => r.bitDelayTick c lin
  | .bitFall => r.bitFallTick c lin

/-- A tick without reset at which no command is accepted: the phase rule fires (R186 case 2, R133). -/
def State.phaseStep (s : State) : State := s.advance (s.regs.phaseTick s.cfg s.lin)

end Sys2Proof.Machine
end

