-- ==== Sys2Proof/Machine/Step.lean ====
section
/-! DEFINITION. One tick of the block (spec/00_scope.md R12), in the order of spec/60_exceptions.md R186. -/

namespace Sys2Proof.Machine

/-- One tick: reset beats everything; else a busy block runs its phase rule and does not look at the command port;
else a presented command is accepted; else IDLE waits (R110, R111, R116, R133, R186). A configuration without a
meaning is refused (R11). -/
def step (s : State) : Host.Outcome State Fault Refusal :=
  if s.cfg.ok then
    if s.input.rst then .next s.resetTick
    else if s.regs.phase = .idle ∧ s.input.cmdValid = true then exec (presentedCommand s.input) s
    else .next s.phaseStep
  else .refused .illegalConfiguration

/-- `s` with the word of an opcode-table row presented at the current tick, and PHASE = IDLE, where alone a word is
looked at (R110, R111): the very next step accepts it. The level of `line_in` at that tick where none is listed is the
model's DESIGN CHOICE, PREV (`State.present`; log entry 8). -/
def State.withFetchWord (s : State) (nbits w : Nat) : State := s.present (BitVec.ofNat 19 (w % 2 ^ nbits))

end Sys2Proof.Machine
end

