-- ==== Sys2Proof/Machine/Ports.lean ====
section
/-! DEFINITION. The output ports (spec/10_state.md R21), the numeric codes of PHASE (spec/30_encoding.md R90), and
MP's data model as views of the registers (R42). -/

namespace Sys2Proof.Machine

/-- The code of a phase (R29, R90). -/
def Phase.code (p : Phase) : BitVec 3 :=
  match p with
  | .idle => 0b000
  | .startLow => 0b001
  | .startHigh => 0b010
  | .respGuard => 0b011
  | .respWait => 0b100
  | .bitRise => 0b101
  | .bitDelay => 0b110
  | .bitFall => 0b111

/-- The output ports of R21. -/
structure Outputs where
  /-- `line_oe`: the block drives the line. -/
  lineOe : Bool
  /-- `line_out`: the level driven; meaningful only while `line_oe` = 1. -/
  lineOut : Bool
  /-- `busy` (R38). -/
  busy : Bool
  /-- `resp_ok`. -/
  respOk : Bool
  /-- `valid`. -/
  valid : Bool
  /-- `tmo`. -/
  tmo : Bool
  /-- `bytecnt`. -/
  bytecnt : BitVec 3
  /-- `rbyte`. -/
  rbyte : Byte
  /-- `hum`. -/
  hum : Byte
  /-- `temp`. -/
  temp : Byte
  /-- `led_safe`. -/
  ledSafe : Bool
  /-- `led_warn`. -/
  ledWarn : Bool
  /-- `led_danger`. -/
  ledDanger : Bool
  /-- `buzzer`. -/
  buzzer : Bool
  /-- `pump`. -/
  pump : Bool
deriving DecidableEq, Repr

/-- `line_oe` (R21, R62). -/
def Regs.lineOe (r : Regs) : Bool :=
  match r.phase with
  | .startLow => true
  | .startHigh => true
  | _ => false

/-- `line_out`: 0 iff PHASE is START_LOW (R21). -/
def Regs.lineOut (r : Regs) : Bool := decide (r.phase ≠ .startLow)

/-- `busy`: PHASE is not IDLE (R38). -/
def Regs.busy (r : Regs) : Bool := decide (r.phase ≠ .idle)

/-- The output ports, functions of the registers of the same tick (R12, R21). -/
def Regs.outputs (r : Regs) : Outputs where
  lineOe := r.lineOe
  lineOut := r.lineOut
  busy := r.busy
  respOk := r.respOk
  valid := r.valid
  tmo := r.tmo
  bytecnt := r.bytecnt
  rbyte := r.shreg
  hum := r.hum
  temp := r.temp
  ledSafe := r.out.getLsbD 0
  ledWarn := r.out.getLsbD 1
  ledDanger := r.out.getLsbD 2
  buzzer := r.out.getLsbD 3
  pump := r.out.getLsbD 4

/-- MP's SensorReading (R42). -/
structure SensorReading where
  /-- TEMP. -/
  temperatureC : Byte
  /-- HUM. -/
  humidityPct : Byte
  /-- VALID. -/
  valid : Bool
deriving DecidableEq, Repr

/-- The reading the registers hold (R42). -/
def Regs.reading (r : Regs) : SensorReading where
  temperatureC := r.temp
  humidityPct := r.hum
  valid := r.valid

/-- MP's ActuatorState (R42). -/
structure ActuatorState where
  /-- The alarm tier. -/
  alarmTier : Tier
  /-- The pump. -/
  pumpOn : Bool
deriving DecidableEq, Repr

/-- The ActuatorState that OUT shows: the tier one-hot in OUT[2:0], none before the first ACT (R42, R211). -/
def Regs.actuatorState (r : Regs) : Option ActuatorState :=
  if r.out.extractLsb' 0 3 = 0b001 then some { alarmTier := .safe, pumpOn := r.out.getLsbD 4 }
  else if r.out.extractLsb' 0 3 = 0b010 then some { alarmTier := .warning, pumpOn := r.out.getLsbD 4 }
  else if r.out.extractLsb' 0 3 = 0b100 then some { alarmTier := .danger, pumpOn := r.out.getLsbD 4 }
  else none

end Sys2Proof.Machine
end

