-- ==== Sys2Proof/Safety.lean ====
section
/-! DEFINITION. The terms claims are stated in: runs of many ticks, what the environment presents during them, what a
good state is (`State.Inv`), and the sensor's waveform as claims describe it. Nothing here is used by the machine. -/

namespace Sys2Proof.Machine

/-- `k` ticks of the block. -/
def runFor : Nat → State → Host.Outcome State Fault Refusal
  | 0, s => .next s
  | k + 1, s =>
    match step s with
    | .next t => runFor k t
    | .fault r => .fault r
    | .refused r => .refused r

/-- The next tick's state with the registers `r`: parameters kept, inputs one tick on (R12, R16). -/
def State.nextTick (s : State) (r : Regs) : State :=
  { regs := r, cfg := s.cfg, inputs := s.inputs.tail, tick := s.tick + 1 }

/-- `line_in` at the tick `j` ticks from now (R20). -/
def State.lineAt (s : State) (j : Nat) : Bool := (s.inputAt j).line

/-- The rise predicate of R126 at the tick `j` ticks from now, read off the environment alone. -/
def State.riseAt (s : State) (j : Nat) : Bool :=
  rise s.cfg.riseMode (if j = 0 then s.regs.prev else s.lineAt (j - 1)) (s.lineAt j)

/-- `rst` = 0 at the current tick and the `n - 1` ticks after it. -/
def State.noReset (s : State) (n : Nat) : Prop := ∀ j, j < n → (s.inputAt j).rst = false

/-- The acceptance of the command `i` at the current tick (R110), by a block whose configuration has a meaning. -/
structure State.Accepts (s : State) (i : Instr) : Prop where
  /-- The configuration meets R6 and R11. -/
  legal : s.cfg.ok = true
  /-- `rst` = 0. -/
  running : s.input.rst = false
  /-- PHASE = IDLE. -/
  idle : s.regs.phase = .idle
  /-- `cmd_valid` = 1. -/
  presented : s.input.cmdValid = true
  /-- The word on the ports spells `i`. -/
  word : presentedCommand s.input = i

/-- The block is at the first tick `k` at which PHASE = IDLE again after the current tick, with the registers `r` (the
end of an operation, R227). -/
def State.EndsAt (s : State) (k : Nat) (r : Regs) : Prop :=
  1 ≤ k ∧ (∀ j, 1 ≤ j → j < k → ∃ t, runFor j s = .next t ∧ t.regs.phase ≠ .idle) ∧
    ∃ t, runFor k s = .next t ∧ t.regs = r ∧ r.phase = .idle

/-- The tick of the commit (R130). -/
abbrev State.commitsNow (s : State) : Prop :=
  s.regs.phase = .bitFall ∧ s.lineAt 0 = false ∧ s.regs.bitcnt = 7 ∧ s.regs.seq = true ∧ s.regs.bytecnt = 4

/-- The tick of a handshake failure (R123, R124, R131). -/
abbrev State.handshakeFailsNow (s : State) : Prop :=
  s.regs.tmr = 0 ∧
    ((s.regs.phase = .respGuard ∧ s.lineAt 0 = true) ∨ (s.regs.phase = .respWait ∧ s.lineAt 0 = false))

/-- The tick of a wait timeout (R125, R128, R132). -/
abbrev State.timesOutNow (s : State) : Prop :=
  0 < s.cfg.waitTimeout ∧ s.regs.tmr = 0 ∧
    ((s.regs.phase = .bitRise ∧ s.riseAt 0 = false) ∨ (s.regs.phase = .bitFall ∧ s.lineAt 0 = true))

/-- The tick that ends a byte of a SAMPLE with byte index `k` (R129). -/
abbrev State.endsByteNow (s : State) (k : BitVec 3) : Prop :=
  s.regs.phase = .bitFall ∧ s.lineAt 0 = false ∧ s.regs.bitcnt = 7 ∧ s.regs.seq = true ∧ s.regs.bytecnt = k

/-- The largest value TMR has in a phase: what the phase loads on entry (R120 to R128), none in IDLE. -/
def timerBound (c : Config) (p : Phase) : Nat :=
  match p with
  | .idle => 2 ^ c.tmrW - 1
  | .startLow => c.tStartLow - 1
  | .startHigh => c.tStartHigh - 1
  | .respGuard => c.tGuard
  | .respWait => c.tResp - 1
  | .bitRise => c.waitTimeout - 1
  | .bitDelay => c.tSample - 1
  | .bitFall => c.waitTimeout - 1

/-- The values OUT ever has (R91). -/
def outValues : List OutLatch := [0b00000, 0b00001, 0b00010, 0b01100, 0b10001, 0b10010, 0b11100]

/-- BYTECNT where SAMPLE runs: 0 up to the response check, at most 4 during the frame (R32, R129, R130). -/
def sampleBytesOk (p : Phase) (bytecnt : BitVec 3) : Bool :=
  match p with
  | .idle => true
  | .startLow => decide (bytecnt = 0)
  | .startHigh => decide (bytecnt = 0)
  | .respGuard => decide (bytecnt = 0)
  | .respWait => decide (bytecnt = 0)
  | .bitRise => decide (bytecnt.toNat ≤ 4)
  | .bitDelay => decide (bytecnt.toNat ≤ 4)
  | .bitFall => decide (bytecnt.toNat ≤ 4)

/-- A good state: what every state reached from reset satisfies and every tick keeps. -/
structure State.Inv (s : State) : Prop where
  /-- The configuration meets R6 and R11. -/
  legal : s.cfg.ok = true
  /-- TMR fits its TMR_W bits (R33). -/
  timerFits : s.regs.tmr < 2 ^ s.cfg.tmrW
  /-- TMR is at most what its phase loaded (R120). -/
  timerInPhase : s.regs.tmr ≤ timerBound s.cfg s.regs.phase
  /-- "Values 6 and 7 are never reached" (R32). -/
  bytesInRange : s.regs.bytecnt.toNat ≤ 5
  /-- BYTECNT inside SAMPLE (R32, R129). -/
  bytesInSample : s.regs.seq = true → sampleBytesOk s.regs.phase s.regs.bytecnt = true
  /-- OUT is one of the seven values of R91. -/
  outLegal : s.regs.out ∈ outValues
  /-- "With WAIT_TIMEOUT = 0 it is never set" (R37). -/
  noTimeout : s.cfg.waitTimeout = 0 → s.regs.tmo = false

/-- One bit of the sensor as the decoder sees it (R87): a high pulse, then a low period. -/
structure Pulse where
  /-- The bit meant. -/
  bit : Bool
  /-- Ticks high, from the tick the rise is seen. -/
  high : Nat
  /-- Ticks low after it. -/
  low : Nat
deriving DecidableEq, Repr

/-- The conditions of R218 on one bit, with T_SAMPLE = `t`: a high pulse of at least `t + 1` ticks for a 1, and at
least one low tick; at most `t` for a 0, and low at the tick after the sample. -/
def Pulse.legal (t : Nat) (p : Pulse) : Bool :=
  if p.bit then decide (t + 1 ≤ p.high) && decide (1 ≤ p.low)
  else decide (1 ≤ p.high) && decide (p.high ≤ t) && decide (t + 2 ≤ p.high + p.low)

/-- The line levels of a sequence of pulses, tick by tick (R94). -/
def waveOf : List Pulse → List Bool
  | [] => []
  | p :: ps => List.replicate p.high true ++ List.replicate p.low false ++ waveOf ps

/-- The line shows the levels `w` from the tick `start` ticks from now on. -/
def State.lineFollows (s : State) (start : Nat) (w : List Bool) : Prop :=
  ∀ j, j < w.length → w[j]? = some (s.lineAt (start + j))

/-- The number a list of bits spells, the first bit the most significant (R65). -/
def msbFirst (bits : List Bool) : Nat := bits.foldl (fun n b => 2 * n + b.toNat) 0

/-- Byte `k` of a stream of bits: bit `n` of the stream is bit `7 - n mod 8` of byte `n div 8` (R66). -/
def streamByte (bits : List Bool) (k : Nat) : Byte := BitVec.ofNat 8 (msbFirst ((bits.drop (8 * k)).take 8))

end Sys2Proof.Machine
end

