-- ==== Sys2Proof/Certificates/Slice0/Obligations.lean ====
section
/-! DEFINITION. The statements for the provers. Each says which rule of spec/ it formalises. `s.lineAt 0` is `line_in`
at the current tick; `s.nextTick r` is the next tick's state with the registers `r`, so an equation with it is a whole
frame: every register not named keeps its value. The block has no memory (R60), so no statement has a memory clause. -/

open Sys2Proof Sys2Proof.Machine

/-! ### Encoding (spec/30_encoding.md) -/

/-- Words written out from R82 and R92, with operand bits where the format has none (R81; DV10b, DV10e). -/
def Obligations.CommandWordsDecode : Prop :=
  decodeWord 0x00000 = .nop ∧ decodeWord 0x00001 = .start ∧ decodeWord 0x00002 = .check ∧
  decodeWord 0x00003 = .rdbyte ∧ decodeWord 0x00004 = .sample ∧ decodeWord 0x01905 = .act 800 ∧
  decodeWord 0x015E5 = .act 700 ∧ decodeWord 0x7FFFD = .act 65535 ∧ decodeWord 0x003DE = .rsv6 ∧
  decodeWord 0x7FFFF = .rsv7 ∧ decodeWord 0x7FFF8 = .nop

/-- Decoding the canonical word of a well-formed command gives it back, read as a word, as a number, or as the bits
of a table row of at least 19 bits (R80 to R83, R92). -/
def Obligations.DecodeOfEncode : Prop :=
  ∀ i : Instr, i.wf = true →
    decodeWord (encode i) = i ∧ decode (encode i).toNat = .ok i ∧
      ∀ nbits, 19 ≤ nbits → decodeTableWord nbits (encode i).toNat = some i

/-- Encoding what a word decodes to gives the word back for ACT, and the word with its operand bits cleared for every
other code (R81: "The canonical encoding has them 0"). -/
def Obligations.EncodeOfDecodeIsCanonical : Prop :=
  ∀ w : CmdWord,
    encode (decodeWord w) = if w.toNat % 8 = 5 then w else BitVec.ofNat 19 (w.toNat % 8)

/-- Two words spell the same command exactly when their codes agree and, for ACT, their operands (R81, R82: "Only
`cw[2:0]` selects the command"). -/
def Obligations.DecodeReadsCodeAndSoilOnly : Prop :=
  ∀ w v : CmdWord,
    decodeWord w = decodeWord v ↔
      w.toNat % 8 = v.toNat % 8 ∧ (w.toNat % 8 = 5 → w.toNat / 8 = v.toNat / 8)

/-! ### The tick: reset, acceptance, waiting (spec/40_dispatch.md, spec/60_exceptions.md R186) -/

/-- A step at an idle block with a word presented runs the command the word decodes to, and adds nothing around it
(R110, R115). -/
def Obligations.StepRunsPresentedCommand : Prop :=
  ∀ (s : State) (i : Instr), s.cfg.ok = true → i.wf = true → s.input.rst = false → s.regs.phase = .idle →
    s.input.cmdValid = true → decodeWord (wordOf s.input.operand s.input.cmd) = i → step s = exec i s

/-- The word of an opcode-table row, presented, is what the very next step runs (R110; log entry 8, the model's own
convention). -/
def Obligations.PresentedTableWordIsRun : Prop :=
  ∀ (s : State) (nbits w : Nat) (i : Instr), s.cfg.ok = true → decodeTableWord nbits w = some i →
    step (s.withFetchWord nbits w) = exec i (s.withFetchWord nbits w) ∧
      (s.withFetchWord nbits w).regs = { s.regs with phase := .idle } ∧
      (s.withFetchWord nbits w).cfg = s.cfg ∧ (s.withFetchWord nbits w).tick = s.tick

/-- R116, with every value of the table of R43 spelled out. -/
def Obligations.ResetWinsOverEverything : Prop :=
  ∀ s : State, s.cfg.ok = true → s.input.rst = true →
    step s = .next (s.nextTick
      { phase := .idle, seq := false, tmr := 0, bitcnt := 0, bytecnt := 0, shreg := 0, hStg := 0, tStg := 0
        hum := 0, temp := 0, valid := false, respOk := false, tmo := false, prev := true, out := 0 })

/-- R111: a busy block's next state does not depend on `cmd_valid`, `cmd` or `operand`. -/
def Obligations.BusyIgnoresCommandPort : Prop :=
  ∀ (s : State) (a b : Inputs) (rest : List Inputs), s.regs.phase ≠ .idle → a.rst = b.rst → a.line = b.line →
    step { s with inputs := a :: rest } = step { s with inputs := b :: rest }

/-- R133: an idle block without a command writes PREV and nothing else. -/
def Obligations.IdleWritesPrevOnly : Prop :=
  ∀ s : State, s.cfg.ok = true → s.input.rst = false → s.regs.phase = .idle → s.input.cmdValid = false →
    step s = .next (s.nextTick { s.regs with prev := s.lineAt 0 })

/-- R11: a configuration that breaks one of its constraints is refused at every tick. -/
def Obligations.IllegalConfigurationIsRefused : Prop :=
  ∀ s : State,
    (s.cfg.tStartLow < 1 ∨ s.cfg.tStartHigh < 1 ∨ s.cfg.tGuard < 1 ∨ s.cfg.tResp < 1 ∨ s.cfg.tSample < 1 ∨
      2 ^ s.cfg.tmrW ≤ s.cfg.tStartLow - 1 ∨ 2 ^ s.cfg.tmrW ≤ s.cfg.tStartHigh - 1 ∨
      2 ^ s.cfg.tmrW ≤ s.cfg.tGuard ∨ 2 ^ s.cfg.tmrW ≤ s.cfg.tResp - 1 ∨ 2 ^ s.cfg.tmrW ≤ s.cfg.tSample - 1 ∨
      (0 < s.cfg.waitTimeout ∧ 2 ^ s.cfg.tmrW ≤ s.cfg.waitTimeout - 1)) →
    step s = .refused .illegalConfiguration

/-- A configuration within the ranges of R6 and R10 and the constraints of R11 has exactly one next state at every
tick (R12, R13: "takes exactly one step per tick"; R180: there is no fault), and a tick writes no parameter and takes
one tick of input (R16). -/
def Obligations.EveryTickAnswersNext : Prop :=
  ∀ s : State,
    (1 ≤ s.cfg.tStartLow ∧ s.cfg.tStartLow ≤ 2 ^ s.cfg.tmrW ∧ 20 ≤ s.cfg.tStartHigh ∧ s.cfg.tStartHigh ≤ 40 ∧
      s.cfg.tStartHigh ≤ 2 ^ s.cfg.tmrW ∧ 1 ≤ s.cfg.tGuard ∧ s.cfg.tGuard ≤ 2 ^ s.cfg.tmrW - 1 ∧
      1 ≤ s.cfg.tResp ∧ s.cfg.tResp ≤ 2 ^ s.cfg.tmrW ∧ 1 ≤ s.cfg.tSample ∧ s.cfg.tSample ≤ 2 ^ s.cfg.tmrW ∧
      s.cfg.waitTimeout ≤ 2 ^ s.cfg.tmrW) →
    ∃ t, step s = .next t ∧ t.cfg = s.cfg ∧ t.inputs = s.inputs.tail ∧ t.tick = s.tick + 1

/-! ### The commands at the tick of acceptance (spec/40_dispatch.md R113 to R115; spec/42_actuator.md) -/

/-- NOP and the two reserved codes write PREV and nothing else (R113, R114). -/
def Obligations.NopAndReservedWritePrevOnly : Prop :=
  ∀ s : State,
    exec .nop s = .next (s.nextTick { s.regs with prev := s.lineAt 0 }) ∧
    exec .rsv6 s = .next (s.nextTick { s.regs with prev := s.lineAt 0 }) ∧
    exec .rsv7 s = .next (s.nextTick { s.regs with prev := s.lineAt 0 })

/-- START at its acceptance (R115, R135). -/
def Obligations.StartBeginsStartSignal : Prop :=
  ∀ s : State, exec .start s = .next (s.nextTick
    { s.regs with seq := false, phase := .startLow, tmr := s.cfg.tStartLow - 1, prev := s.lineAt 0 })

/-- CHECK at its acceptance (R115, R136). -/
def Obligations.CheckBeginsGuardDelay : Prop :=
  ∀ s : State, exec .check s = .next (s.nextTick
    { s.regs with seq := false, phase := .respGuard, tmr := s.cfg.tGuard, prev := s.lineAt 0 })

/-- RDBYTE at its acceptance (R115, R137), with WLOAD spelled out. -/
def Obligations.RdbyteBeginsRiseWait : Prop :=
  ∀ s : State, exec .rdbyte s = .next (s.nextTick
    { s.regs with
      seq := false, phase := .bitRise, bitcnt := 0, tmo := false
      tmr := if s.cfg.waitTimeout > 0 then s.cfg.waitTimeout - 1 else 0
      prev := s.lineAt 0 })

/-- SAMPLE at its acceptance (R115, R138). -/
def Obligations.SampleBeginsStartSignal : Prop :=
  ∀ s : State, exec .sample s = .next (s.nextTick
    { s.regs with
      seq := true, phase := .startLow, tmr := s.cfg.tStartLow - 1, bytecnt := 0, tmo := false
      prev := s.lineAt 0 })

/-- ACT writes OUT and PREV and nothing else, each line of OUT by the unsigned comparisons of R160 and R161 (R162,
R163). -/
def Obligations.ActLatchesComparisons : Prop :=
  ∀ (s : State) (soil : Soil), ∃ o : OutLatch,
    exec (.act soil) s = .next (s.nextTick { s.regs with out := o, prev := s.lineAt 0 }) ∧
    (o.getLsbD 0 = true ↔ s.regs.temp.toNat < s.cfg.tempLimit.toNat) ∧
    (o.getLsbD 1 = true ↔ s.regs.temp.toNat = s.cfg.tempLimit.toNat) ∧
    (o.getLsbD 2 = true ↔ s.regs.temp.toNat > s.cfg.tempLimit.toNat) ∧
    (o.getLsbD 3 = true ↔ s.regs.temp.toNat > s.cfg.tempLimit.toNat) ∧
    (o.getLsbD 4 = true ↔ soil.toNat > s.cfg.soilThreshold.toNat)

/-- R164: ACT's new outputs depend on TEMP and the operand alone (and the static thresholds). -/
def Obligations.ActReadsTempAndSoilOnly : Prop :=
  ∀ (s s' : State) (soil : Soil), s.cfg.soilThreshold = s'.cfg.soilThreshold → s.cfg.tempLimit = s'.cfg.tempLimit →
    s.regs.temp = s'.regs.temp →
    ∃ t t', exec (.act soil) s = .next t ∧ exec (.act soil) s' = .next t' ∧ t.regs.out = t'.regs.out ∧
      t.regs.temp = s.regs.temp

/-- R166, for every limit; with the default limit 25 all three indicator patterns occur. -/
def Obligations.ExactlyOneTierIsShown : Prop :=
  (∀ (c : Config) (t : Byte) (soil : Soil),
    ((actuate c t soil).getLsbD 0).toNat + ((actuate c t soil).getLsbD 1).toNat
      + ((actuate c t soil).getLsbD 2).toNat = 1 ∧
    (actuate c t soil).getLsbD 2 = (actuate c t soil).getLsbD 3 ∧
    ((actuate c t soil).toNat % 16 = 0b0001 ∨ (actuate c t soil).toNat % 16 = 0b0010 ∨
      (actuate c t soil).toNat % 16 = 0b1100)) ∧
  ∀ soil : Soil,
    (actuate Config.defaults 24 soil).toNat % 16 = 0b0001 ∧ (actuate Config.defaults 25 soil).toNat % 16 = 0b0010 ∧
    (actuate Config.defaults 26 soil).toNat % 16 = 0b1100

/-! ### The phases, tick by tick (spec/41_sensorlink.md section 1) -/

/-- R120: from a timed phase with TMR = n, the first n ticks count TMR down and write nothing else but PREV; so the
end action is at the n-th tick from now and not before. -/
def Obligations.TimedPhaseCountsDown : Prop :=
  ∀ (s : State) (k : Nat), s.cfg.ok = true →
    (s.regs.phase = .startLow ∨ s.regs.phase = .startHigh ∨ s.regs.phase = .respGuard ∨
      s.regs.phase = .respWait ∨ s.regs.phase = .bitDelay) →
    k ≤ s.regs.tmr → s.noReset k →
    ∃ t, runFor k s = .next t ∧ t.cfg = s.cfg ∧ t.inputs = s.inputs.drop k ∧ t.tick = s.tick + k ∧
      t.regs = { s.regs with
        tmr := s.regs.tmr - k
        prev := if k = 0 then s.regs.prev else s.lineAt (k - 1) }

/-- The end actions of START_LOW and START_HIGH (R121, R122). -/
def Obligations.StartPhasesEnd : Prop :=
  ∀ s : State, s.cfg.ok = true → s.input.rst = false → s.regs.tmr = 0 →
    (s.regs.phase = .startLow →
      step s = .next (s.nextTick
        { s.regs with phase := .startHigh, tmr := s.cfg.tStartHigh - 1, prev := s.lineAt 0 })) ∧
    (s.regs.phase = .startHigh → s.regs.seq = true →
      step s = .next (s.nextTick { s.regs with phase := .respGuard, tmr := s.cfg.tGuard, prev := s.lineAt 0 })) ∧
    (s.regs.phase = .startHigh → s.regs.seq = false →
      step s = .next (s.nextTick { s.regs with phase := .idle, prev := s.lineAt 0 }))

/-- The two response samples where the handshake goes on (R123, R124). -/
def Obligations.ResponseSamplesPass : Prop :=
  ∀ s : State, s.cfg.ok = true → s.input.rst = false → s.regs.tmr = 0 →
    (s.regs.phase = .respGuard → s.lineAt 0 = false →
      step s = .next (s.nextTick { s.regs with phase := .respWait, tmr := s.cfg.tResp - 1, prev := false })) ∧
    (s.regs.phase = .respWait → s.lineAt 0 = true → s.regs.seq = true →
      step s = .next (s.nextTick
        { s.regs with
          respOk := true, phase := .bitRise, bitcnt := 0
          tmr := if s.cfg.waitTimeout > 0 then s.cfg.waitTimeout - 1 else 0
          prev := true })) ∧
    (s.regs.phase = .respWait → s.lineAt 0 = true → s.regs.seq = false →
      step s = .next (s.nextTick { s.regs with respOk := true, phase := .idle, prev := true }))

/-- R131: at the tick of a handshake failure, either sample, exactly these registers are written (and PREV). -/
def Obligations.HandshakeFailWrites : Prop :=
  ∀ s : State, s.cfg.ok = true → s.input.rst = false → s.regs.tmr = 0 →
    ((s.regs.phase = .respGuard ∧ s.lineAt 0 = true) ∨ (s.regs.phase = .respWait ∧ s.lineAt 0 = false)) →
    step s = .next (s.nextTick
      { s.regs with
        respOk := false, valid := if s.regs.seq = true then false else s.regs.valid, phase := .idle
        prev := s.lineAt 0 })

/-- R125 with R126 spelled out: what a BIT_RISE tick does in each of its cases, a wait timeout aside (R132). -/
def Obligations.BitRiseWaitsForRise : Prop :=
  ∀ s : State, s.cfg.ok = true → s.input.rst = false → s.regs.phase = .bitRise →
    ((s.lineAt 0 = true ∧ (s.cfg.riseMode = .level ∨ s.regs.prev = false)) →
      step s = .next (s.nextTick { s.regs with phase := .bitDelay, tmr := s.cfg.tSample - 1, prev := true })) ∧
    (¬ (s.lineAt 0 = true ∧ (s.cfg.riseMode = .level ∨ s.regs.prev = false)) →
      (0 < s.cfg.waitTimeout → s.regs.tmr ≠ 0 →
        step s = .next (s.nextTick { s.regs with tmr := s.regs.tmr - 1, prev := s.lineAt 0 })) ∧
      (s.cfg.waitTimeout = 0 → step s = .next (s.nextTick { s.regs with prev := s.lineAt 0 })))

/-- R127: the sample. The new SHREG is the old one doubled, modulo 256, plus the level read. -/
def Obligations.BitDelaySamples : Prop :=
  ∀ s : State, s.cfg.ok = true → s.input.rst = false → s.regs.phase = .bitDelay → s.regs.tmr = 0 →
    ∃ b : Byte, b.toNat = (2 * s.regs.shreg.toNat + (s.lineAt 0).toNat) % 256 ∧
      step s = .next (s.nextTick
        { s.regs with
          shreg := b, phase := .bitFall
          tmr := if s.cfg.waitTimeout > 0 then s.cfg.waitTimeout - 1 else 0
          prev := s.lineAt 0 })

/-- R128: what a BIT_FALL tick does in each of its cases, the end of a byte (R129) and a wait timeout (R132) aside. -/
def Obligations.BitFallWaitsForLow : Prop :=
  ∀ s : State, s.cfg.ok = true → s.input.rst = false → s.regs.phase = .bitFall →
    (s.lineAt 0 = false → s.regs.bitcnt ≠ 7 →
      step s = .next (s.nextTick
        { s.regs with
          bitcnt := s.regs.bitcnt + 1, phase := .bitRise
          tmr := if s.cfg.waitTimeout > 0 then s.cfg.waitTimeout - 1 else 0
          prev := false })) ∧
    (s.lineAt 0 = true → 0 < s.cfg.waitTimeout → s.regs.tmr ≠ 0 →
      step s = .next (s.nextTick { s.regs with tmr := s.regs.tmr - 1, prev := true })) ∧
    (s.lineAt 0 = true → s.cfg.waitTimeout = 0 → step s = .next (s.nextTick { s.regs with prev := true }))

/-- R129 without its commit: a standalone RDBYTE ends; inside SAMPLE bytes 0 and 2 are staged and the next begins. -/
def Obligations.EndOfByteStagesOrEnds : Prop :=
  ∀ s : State, s.cfg.ok = true → s.input.rst = false → s.regs.phase = .bitFall → s.lineAt 0 = false →
    s.regs.bitcnt = 7 →
    (s.regs.seq = false →
      step s = .next (s.nextTick { s.regs with bitcnt := 0, phase := .idle, prev := false })) ∧
    (s.regs.seq = true → s.regs.bytecnt ≠ 4 →
      step s = .next (s.nextTick
        { s.regs with
          bitcnt := 0
          hStg := if s.regs.bytecnt = 0 then s.regs.shreg else s.regs.hStg
          tStg := if s.regs.bytecnt = 2 then s.regs.shreg else s.regs.tStg
          bytecnt := s.regs.bytecnt + 1, phase := .bitRise
          tmr := if s.cfg.waitTimeout > 0 then s.cfg.waitTimeout - 1 else 0
          prev := false }))

/-- R130: the five writes of the commit, at one tick, whatever the checksum byte in SHREG is. -/
def Obligations.CommitWritesReading : Prop :=
  ∀ s : State, s.cfg.ok = true → s.input.rst = false → s.commitsNow →
    step s = .next (s.nextTick
      { s.regs with
        hum := s.regs.hStg, temp := s.regs.tStg, valid := true, bytecnt := 5, phase := .idle
        bitcnt := 0, prev := false })

/-- R132: at the tick of a wait timeout, in either wait, exactly these registers are written (and PREV). -/
def Obligations.WaitTimeoutWrites : Prop :=
  ∀ s : State, s.cfg.ok = true → s.input.rst = false → s.timesOutNow →
    step s = .next (s.nextTick
      { s.regs with
        tmo := true, valid := if s.regs.seq = true then false else s.regs.valid, phase := .idle
        prev := s.lineAt 0 })

/-- The pulse-width threshold (R88): from the tick of a rise, a pulse of `w` ticks that does not come again by the
sample tick reads 1 exactly when `w` is at least T_SAMPLE + 1. -/
def Obligations.PulseWidthDecidesBit : Prop :=
  ∀ (s : State) (w : Nat), s.cfg.ok = true → s.regs.phase = .bitRise → s.riseAt 0 = true →
    s.noReset (s.cfg.tSample + 1) → 1 ≤ w → (∀ j, j < w → s.lineAt j = true) →
    (∀ j, w ≤ j → j ≤ s.cfg.tSample → s.lineAt j = false) →
    ∃ t, runFor (s.cfg.tSample + 1) s = .next t ∧ t.regs.phase = .bitFall ∧
      t.regs.shreg.toNat = (2 * s.regs.shreg.toNat + (if s.cfg.tSample + 1 ≤ w then 1 else 0)) % 256 ∧
      t.regs.bitcnt = s.regs.bitcnt

/-! ### Whole operations (spec/41_sensorlink.md section 3) -/

/-- START runs T_START_LOW ticks low and T_START_HIGH ticks high and is then idle, whatever the line does; it writes
SEQ, PHASE, TMR and PREV only (R135, R141). -/
def Obligations.StartDrivesThenReleases : Prop :=
  ∀ s : State, s.Accepts .start → s.noReset (s.cfg.tStartLow + s.cfg.tStartHigh + 1) →
    (∀ k, 1 ≤ k → k ≤ s.cfg.tStartLow → ∃ t, runFor k s = .next t ∧
      t.regs.outputs.lineOe = true ∧ t.regs.outputs.lineOut = false) ∧
    (∀ k, s.cfg.tStartLow + 1 ≤ k → k ≤ s.cfg.tStartLow + s.cfg.tStartHigh → ∃ t, runFor k s = .next t ∧
      t.regs.outputs.lineOe = true ∧ t.regs.outputs.lineOut = true) ∧
    s.EndsAt (s.cfg.tStartLow + s.cfg.tStartHigh + 1)
      { s.regs with
        phase := .idle, seq := false, tmr := 0, prev := s.lineAt (s.cfg.tStartLow + s.cfg.tStartHigh) }

/-- CHECK ends at T_GUARD + 2 if the first sample fails, else at T_GUARD + T_RESP + 2; RESP_OK tells whether both
samples passed; it writes RESP_OK, SEQ, PHASE, TMR and PREV only (R136, R141). -/
def Obligations.CheckReportsTwoSamples : Prop :=
  ∀ s : State, s.Accepts .check → s.noReset (s.cfg.tGuard + s.cfg.tResp + 2) →
    (s.lineAt (s.cfg.tGuard + 1) = true →
      s.EndsAt (s.cfg.tGuard + 2)
        { s.regs with phase := .idle, seq := false, tmr := 0, respOk := false, prev := true }) ∧
    (s.lineAt (s.cfg.tGuard + 1) = false →
      s.EndsAt (s.cfg.tGuard + s.cfg.tResp + 2)
        { s.regs with
          phase := .idle, seq := false, tmr := 0, respOk := s.lineAt (s.cfg.tGuard + s.cfg.tResp + 1)
          prev := s.lineAt (s.cfg.tGuard + s.cfg.tResp + 1) })

/-- RDBYTE reads eight pulses that meet the conditions of R218 into SHREG, most significant bit first, and writes
nothing of the reading (R137, R86; SV1 of spec/95_test_vectors.md). `lead` ticks without a rise come first, the last
level before the pulses being low. -/
def Obligations.RdbyteReadsEightPulses : Prop :=
  ∀ (s : State) (lead : Nat) (ps : List Pulse), s.Accepts .rdbyte → s.cfg.waitTimeout = 0 → ps.length = 8 →
    (∀ p, p ∈ ps → p.legal s.cfg.tSample = true) →
    s.noReset (lead + 1 + (waveOf ps).length) →
    (∀ j, 1 ≤ j → j ≤ lead → s.riseAt j = false) → s.lineAt lead = false → s.lineFollows (lead + 1) (waveOf ps) →
    ∃ k, k ≤ lead + 1 + (waveOf ps).length ∧
      s.EndsAt k
        { s.regs with
          phase := .idle, seq := false, tmr := 0, bitcnt := 0, tmo := false
          shreg := streamByte (ps.map Pulse.bit) 0, prev := false }

/-- SAMPLE commits the frame the sensor sends: after a response that passes both samples, forty pulses that meet the
conditions of R218 end in HUM = byte 0, TEMP = byte 2, VALID = 1, BYTECNT = 5, SHREG = byte 4, and OUT as it was
(R138, R85; SV1). `lead` ticks without a rise follow the second sample, the last level before the pulses being low. -/
def Obligations.SampleCommitsFrameSent : Prop :=
  ∀ (s : State) (lead b : Nat) (ps : List Pulse), s.Accepts .sample → s.cfg.waitTimeout = 0 → ps.length = 40 →
    b = s.cfg.tStartLow + s.cfg.tStartHigh + 1 + s.cfg.tGuard + s.cfg.tResp →
    (∀ p, p ∈ ps → p.legal s.cfg.tSample = true) →
    s.noReset (b + 1 + lead + (waveOf ps).length) →
    s.lineAt (b - s.cfg.tResp) = false → s.lineAt b = true →
    (∀ j, b + 1 ≤ j → j ≤ b + lead → s.riseAt j = false) → s.lineAt (b + lead) = false →
    s.lineFollows (b + 1 + lead) (waveOf ps) →
    ∃ k, k ≤ b + 1 + lead + (waveOf ps).length ∧
      s.EndsAt k
        { s.regs with
          phase := .idle, seq := true, tmr := 0, bitcnt := 0, bytecnt := 5, tmo := false, respOk := true
          valid := true, hum := streamByte (ps.map Pulse.bit) 0, temp := streamByte (ps.map Pulse.bit) 2
          hStg := streamByte (ps.map Pulse.bit) 0, tStg := streamByte (ps.map Pulse.bit) 2
          shreg := streamByte (ps.map Pulse.bit) 4, prev := false }

/-- SAMPLE without a response ends at the first or the second sample with VALID = RESP_OK = 0 and the reading, the
staging registers and OUT as they were (R138, R141, R187; SV8). -/
def Obligations.SampleWithoutResponseHoldsReading : Prop :=
  ∀ (s : State) (g : Nat), s.Accepts .sample → g = s.cfg.tStartLow + s.cfg.tStartHigh + 1 →
    s.noReset (g + s.cfg.tGuard + s.cfg.tResp + 1) →
    (s.lineAt (g + s.cfg.tGuard) = true →
      s.EndsAt (g + s.cfg.tGuard + 1)
        { s.regs with
          phase := .idle, seq := true, tmr := 0, bytecnt := 0, tmo := false, respOk := false, valid := false
          prev := true }) ∧
    (s.lineAt (g + s.cfg.tGuard) = false → s.lineAt (g + s.cfg.tGuard + s.cfg.tResp) = false →
      s.EndsAt (g + s.cfg.tGuard + s.cfg.tResp + 1)
        { s.regs with
          phase := .idle, seq := true, tmr := 0, bytecnt := 0, tmo := false, respOk := false, valid := false
          prev := false })

/-- With WAIT_TIMEOUT = N > 0 a RDBYTE is busy for at most 8 × (2N + T_SAMPLE) ticks, whatever the line does
(R142, R215). -/
def Obligations.RdbyteEndsWithTimeout : Prop :=
  ∀ s : State, s.Accepts .rdbyte → 0 < s.cfg.waitTimeout →
    s.noReset (8 * (2 * s.cfg.waitTimeout + s.cfg.tSample) + 1) →
    ∃ k r, k ≤ 8 * (2 * s.cfg.waitTimeout + s.cfg.tSample) + 1 ∧ s.EndsAt k r ∧
      r.hum = s.regs.hum ∧ r.temp = s.regs.temp ∧ r.valid = s.regs.valid ∧ r.out = s.regs.out

/-- With WAIT_TIMEOUT = N > 0 a SAMPLE ends: after the fixed ticks of the start signal and the response check it is
busy for at most 40 × (2N + T_SAMPLE) ticks, whatever the line does; and VALID then tells how it ended (R142, R138). -/
def Obligations.SampleEndsWithTimeout : Prop :=
  ∀ (s : State) (b : Nat), s.Accepts .sample → 0 < s.cfg.waitTimeout →
    b = s.cfg.tStartLow + s.cfg.tStartHigh + s.cfg.tGuard + 1 + s.cfg.tResp +
      40 * (2 * s.cfg.waitTimeout + s.cfg.tSample) →
    s.noReset (b + 1) →
    ∃ k r, k ≤ b + 1 ∧ s.EndsAt k r ∧ r.out = s.regs.out ∧
      ((r.valid = true ∧ r.bytecnt = 5 ∧ r.hum = r.hStg ∧ r.temp = r.tStg) ∨
       (r.valid = false ∧ r.hum = s.regs.hum ∧ r.temp = s.regs.temp))

/-- With WAIT_TIMEOUT = 0 a wait whose level never comes stays for any number of ticks, whatever is on the command
port, and holds every register but PREV (R182, R215). -/
def Obligations.WaitsHangWithoutTimeout : Prop :=
  ∀ (s : State) (n : Nat), s.cfg.ok = true → s.cfg.waitTimeout = 0 → s.noReset n →
    ((s.regs.phase = .bitRise ∧ ∀ j, j < n → s.riseAt j = false) ∨
      (s.regs.phase = .bitFall ∧ ∀ j, j < n → s.lineAt j = true)) →
    ∃ t, runFor n s = .next t ∧
      t.regs = { s.regs with prev := if n = 0 then s.regs.prev else s.lineAt (n - 1) }

/-- A failed or unfinished operation leaves no residue (R188): two idle blocks with the same reading, flags, outputs,
parameters and inputs, whatever their SEQ, TMR, BITCNT, BYTECNT, SHREG, H_STG, T_STG, TMO and PREV, run a SAMPLE to
the same end at the same tick. -/
def Obligations.SampleLeavesNoResidue : Prop :=
  ∀ (s s' : State) (k : Nat), s.Accepts .sample → s'.regs.phase = .idle → s'.cfg = s.cfg → s'.inputs = s.inputs →
    s'.tick = s.tick → s'.regs.hum = s.regs.hum → s'.regs.temp = s.regs.temp → s'.regs.valid = s.regs.valid →
    s'.regs.respOk = s.regs.respOk → s'.regs.out = s.regs.out → 1 ≤ k →
    (∀ j, 1 ≤ j → j < k → ∃ t, runFor j s = .next t ∧ t.regs.phase ≠ .idle) →
    ∃ t t', runFor k s = .next t ∧ runFor k s' = .next t' ∧ t'.regs.phase = t.regs.phase ∧
      t'.regs.bytecnt = t.regs.bytecnt ∧ t'.regs.hum = t.regs.hum ∧ t'.regs.temp = t.regs.temp ∧
      t'.regs.valid = t.regs.valid ∧ t'.regs.respOk = t.regs.respOk ∧ t'.regs.tmo = t.regs.tmo ∧
      t'.regs.out = t.regs.out

/-! ### Who writes what: laws of every tick -/

/-- HUM and TEMP change by the commit and by reset and by nothing else (R26, R27, R139). -/
def Obligations.ReadingWrittenByCommitOnly : Prop :=
  ∀ s t : State, step s = .next t → s.input.rst = false →
    t.regs.hum = (if s.commitsNow then s.regs.hStg else s.regs.hum) ∧
    t.regs.temp = (if s.commitsNow then s.regs.tStg else s.regs.temp)

/-- VALID is set by the commit, cleared by an abort inside SAMPLE, and otherwise kept (R35). -/
def Obligations.ValidWriters : Prop :=
  ∀ s t : State, step s = .next t → s.input.rst = false →
    t.regs.valid =
      if s.commitsNow then true
      else if s.regs.seq = true ∧ (s.handshakeFailsNow ∨ s.timesOutNow) then false
      else s.regs.valid

/-- RESP_OK is written at the end of a response check and otherwise kept (R36). -/
def Obligations.RespOkWriters : Prop :=
  ∀ s t : State, step s = .next t → s.input.rst = false →
    t.regs.respOk =
      if s.handshakeFailsNow then false
      else if s.regs.phase = .respWait ∧ s.regs.tmr = 0 then true
      else s.regs.respOk

/-- TMO is set by a wait timeout, cleared at the acceptance of RDBYTE and SAMPLE, and otherwise kept (R37). -/
def Obligations.TmoWriters : Prop :=
  ∀ s t : State, step s = .next t → s.input.rst = false →
    t.regs.tmo =
      if s.timesOutNow then true
      else if s.regs.phase = .idle ∧ s.input.cmdValid = true ∧
        (decodeWord (wordOf s.input.operand s.input.cmd) = .rdbyte ∨
          decodeWord (wordOf s.input.operand s.input.cmd) = .sample) then false
      else s.regs.tmo

/-- OUT is written by ACT alone: by a word of code 5 accepted at an idle tick (R28). -/
def Obligations.OutWrittenByActOnly : Prop :=
  ∀ s t : State, step s = .next t → s.input.rst = false →
    t.regs.out =
      if s.regs.phase = .idle ∧ s.input.cmdValid = true ∧ s.input.cmd = 5 then
        actuate s.cfg s.regs.temp s.input.operand
      else s.regs.out

/-- SHREG changes at a sample only; H_STG and T_STG at the end of byte 0 and byte 2 of a SAMPLE only (R23 to R25). -/
def Obligations.ShifterAndStagingWriters : Prop :=
  ∀ s t : State, step s = .next t → s.input.rst = false →
    t.regs.shreg.toNat =
      (if s.regs.phase = .bitDelay ∧ s.regs.tmr = 0 then (2 * s.regs.shreg.toNat + (s.lineAt 0).toNat) % 256
       else s.regs.shreg.toNat) ∧
    t.regs.hStg = (if s.endsByteNow 0 then s.regs.shreg else s.regs.hStg) ∧
    t.regs.tStg = (if s.endsByteNow 2 then s.regs.shreg else s.regs.tStg)

/-- R39: at every tick without reset, in every phase, PREV takes the line level. -/
def Obligations.PrevFollowsLine : Prop :=
  ∀ s t : State, step s = .next t → s.input.rst = false → t.regs.prev = s.lineAt 0

/-- The sequencer moves along the listed transitions only, and leaves IDLE by an accepted line command only
(R34, R133, section 1 of spec/41_sensorlink.md). -/
def Obligations.PhaseTransitions : Prop :=
  ∀ s t : State, step s = .next t → s.input.rst = false →
    (t.regs.phase = s.regs.phase ∨
      (s.regs.phase, t.regs.phase) ∈
        [(Phase.idle, Phase.startLow), (.idle, .respGuard), (.idle, .bitRise), (.startLow, .startHigh),
         (.startHigh, .respGuard), (.startHigh, .idle), (.respGuard, .respWait), (.respGuard, .idle),
         (.respWait, .bitRise), (.respWait, .idle), (.bitRise, .bitDelay), (.bitRise, .idle),
         (.bitDelay, .bitFall), (.bitFall, .bitRise), (.bitFall, .idle)]) ∧
    (s.regs.phase = .idle → t.regs.phase ≠ .idle →
      s.input.cmdValid = true ∧ 1 ≤ s.input.cmd.toNat ∧ s.input.cmd.toNat ≤ 4)

/-! ### What cannot be observed -/

/-- R63: the level of the line at a tick at which the block drives it leaves no trace two ticks on. -/
def Obligations.LineWhileDrivingUnobservable : Prop :=
  ∀ (s : State) (a : Inputs) (b : Bool) (rest : List Inputs), s.cfg.ok = true →
    (s.regs.phase = .startLow ∨ s.regs.phase = .startHigh) →
    runFor 2 { s with inputs := { a with line := b } :: rest } = runFor 2 { s with inputs := a :: rest } ∧
      ∃ t, runFor 2 { s with inputs := a :: rest } = .next t

/-- PREV is read at a BIT_RISE tick only, so its value in any other phase, its reset value among them, is never
observed (R39, R43, R63). -/
def Obligations.PrevReadInRiseWaitOnly : Prop :=
  ∀ (s : State) (b : Bool), s.cfg.ok = true → s.regs.phase ≠ .bitRise →
    step { s with regs := { s.regs with prev := b } } = step s ∧ ∃ t, step s = .next t

/-! ### Outputs and invariants -/

/-- R21: every output port as the function of the registers the table gives. -/
def Obligations.OutputPortsOfRegisters : Prop :=
  ∀ r : Regs,
    (r.outputs.lineOe = true ↔ r.phase = .startLow ∨ r.phase = .startHigh) ∧
    (r.outputs.lineOut = false ↔ r.phase = .startLow) ∧ (r.outputs.busy = true ↔ r.phase ≠ .idle) ∧
    r.outputs.respOk = r.respOk ∧ r.outputs.valid = r.valid ∧ r.outputs.tmo = r.tmo ∧
    r.outputs.bytecnt = r.bytecnt ∧ r.outputs.rbyte = r.shreg ∧ r.outputs.hum = r.hum ∧ r.outputs.temp = r.temp ∧
    r.outputs.ledSafe = r.out.getLsbD 0 ∧ r.outputs.ledWarn = r.out.getLsbD 1 ∧
    r.outputs.ledDanger = r.out.getLsbD 2 ∧ r.outputs.buzzer = r.out.getLsbD 3 ∧ r.outputs.pump = r.out.getLsbD 4

/-- What the outside sees after a tick with `rst` = 1 (R211), and that no value of Actuate looks so. -/
def Obligations.OutputsAfterReset : Prop :=
  (∀ s : State, s.cfg.ok = true → s.input.rst = true → ∃ t, step s = .next t ∧
    t.regs.outputs =
      { lineOe := false, lineOut := true, busy := false, respOk := false, valid := false, tmo := false
        bytecnt := 0, rbyte := 0, hum := 0, temp := 0, ledSafe := false, ledWarn := false, ledDanger := false
        buzzer := false, pump := false }) ∧
  ∀ (c : Config) (t : Byte) (soil : Soil), (actuate c t soil).toNat % 8 ≠ 0

/-- The reset state is a good state. The default parameters, the empty list of inputs and tick 0 are the model's
choices for its own fields (log entries 1, 2, 3). -/
def Obligations.InvariantAtReset : Prop := State.reset.Inv

/-- Every tick keeps the invariant: TMR within its width and its phase's load (R33, R120), BYTECNT at most 5 and in
step with SAMPLE's phases (R32), OUT one of seven values (R91), TMO clear without a timeout (R37). -/
def Obligations.InvariantKeptByEveryTick : Prop :=
  ∀ s t : State, s.Inv → step s = .next t → t.Inv
end

