-- ==== Sys2Proof/Laws/State.lean ====
section
/-! SUPPORT. One lemma per field per update of the state, true by rfl, and how the inputs of a later tick are read. -/

namespace Sys2Proof.Machine

@[simp] theorem advance_regs (s : State) (r : Regs) : (s.advance r).regs = { r with prev := s.lin } := rfl
@[simp] theorem advance_cfg (s : State) (r : Regs) : (s.advance r).cfg = s.cfg := rfl
@[simp] theorem advance_inputs (s : State) (r : Regs) : (s.advance r).inputs = s.inputs.tail := rfl
@[simp] theorem advance_tick (s : State) (r : Regs) : (s.advance r).tick = s.tick + 1 := rfl

@[simp] theorem resetTick_regs (s : State) : s.resetTick.regs = Regs.reset := rfl
@[simp] theorem resetTick_cfg (s : State) : s.resetTick.cfg = s.cfg := rfl
@[simp] theorem resetTick_inputs (s : State) : s.resetTick.inputs = s.inputs.tail := rfl
@[simp] theorem resetTick_tick (s : State) : s.resetTick.tick = s.tick + 1 := rfl

@[simp] theorem nextTick_regs (s : State) (r : Regs) : (s.nextTick r).regs = r := rfl
@[simp] theorem nextTick_cfg (s : State) (r : Regs) : (s.nextTick r).cfg = s.cfg := rfl
@[simp] theorem nextTick_inputs (s : State) (r : Regs) : (s.nextTick r).inputs = s.inputs.tail := rfl
@[simp] theorem nextTick_tick (s : State) (r : Regs) : (s.nextTick r).tick = s.tick + 1 := rfl

@[simp] theorem present_cfg (s : State) (cw : CmdWord) : (s.present cw).cfg = s.cfg := rfl
@[simp] theorem present_tick (s : State) (cw : CmdWord) : (s.present cw).tick = s.tick := rfl
@[simp] theorem present_regs (s : State) (cw : CmdWord) :
    (s.present cw).regs = { s.regs with phase := .idle } := rfl

@[simp] theorem enter_phase (r : Regs) (p : Phase) (n : Nat) : (r.enter p n).phase = p := rfl
@[simp] theorem enter_tmr (r : Regs) (p : Phase) (n : Nat) : (r.enter p n).tmr = n := rfl
@[simp] theorem finish_phase (r : Regs) : r.finish.phase = .idle := rfl

theorem advance_eq_nextTick (s : State) (r : Regs) : s.advance r = s.nextTick { r with prev := s.lin } := rfl
theorem resetTick_eq_nextTick (s : State) : s.resetTick = s.nextTick Regs.reset := rfl

/-- The inputs of tick `j` of the next state are those of tick `j + 1` of this one, listed or free. -/
theorem inputAt_nextTick (s : State) (r : Regs) (j : Nat) : (s.nextTick r).inputAt j = s.inputAt (j + 1) := by
  have h : s.inputs.tail[j]? = s.inputs[j + 1]? := by cases s.inputs <;> simp
  simp only [State.inputAt, nextTick_inputs, nextTick_tick, h, Nat.add_assoc, Nat.add_comm 1 j]

@[simp] theorem lineAt_nextTick (s : State) (r : Regs) (j : Nat) : (s.nextTick r).lineAt j = s.lineAt (j + 1) := by
  simp only [State.lineAt, inputAt_nextTick]

theorem lin_eq_lineAt (s : State) : s.lin = s.lineAt 0 := rfl

/-- A listed tick reads its list entry. -/
theorem input_of_cons (s : State) (inp : Inputs) (rest : List Inputs) (h : s.inputs = inp :: rest) :
    s.input = inp := by
  simp [State.input, State.inputAt, h]

/-- Replacing the registers leaves the inputs alone. -/
@[simp] theorem inputAt_with_regs (s : State) (r : Regs) (j : Nat) :
    ({ s with regs := r } : State).inputAt j = s.inputAt j := rfl

theorem noReset_head {s : State} {n : Nat} (h : s.noReset n) (hn : 0 < n) : s.input.rst = false := h 0 hn

theorem noReset_nextTick {s : State} {n : Nat} (h : s.noReset (n + 1)) (r : Regs) : (s.nextTick r).noReset n := by
  intro j hj
  rw [inputAt_nextTick]
  exact h (j + 1) (by omega)

theorem noReset_mono {s : State} {m n : Nat} (h : s.noReset n) (hm : m ≤ n) : s.noReset m :=
  fun j hj => h j (by omega)

end Sys2Proof.Machine
end

