-- ==== Sys2Proof/Laws/Ops.lean ====
section
/-! SUPPORT. For each shared operation, one lemma that says everything it can do. -/

namespace Sys2Proof.Machine

/-- R120: a timed phase counts down, or acts when TMR reads 0. -/
theorem timed_cases (r e : Regs) :
    (r.tmr ≠ 0 ∧ r.timed e = { r with tmr := r.tmr - 1 }) ∨ (r.tmr = 0 ∧ r.timed e = e) := by
  by_cases h : r.tmr = 0
  · exact .inr ⟨h, by simp [Regs.timed, h]⟩
  · exact .inl ⟨h, by simp [Regs.timed, h]⟩

theorem timed_zero {r : Regs} (e : Regs) (h : r.tmr = 0) : r.timed e = e := by simp [Regs.timed, h]

theorem timed_pos {r : Regs} (e : Regs) (h : r.tmr ≠ 0) : r.timed e = { r with tmr := r.tmr - 1 } := by
  simp [Regs.timed, h]

/-- R125, R128, R186: the four things a tick of a wait can do. -/
theorem await_cases (c : Config) (r : Regs) (arrived : Bool) (done : Regs) :
    (arrived = true ∧ r.await c arrived done = done) ∨
    (arrived = false ∧ 0 < c.waitTimeout ∧ r.tmr = 0 ∧ r.await c arrived done = r.raise .waitTimeout) ∨
    (arrived = false ∧ 0 < c.waitTimeout ∧ r.tmr ≠ 0 ∧ r.await c arrived done = { r with tmr := r.tmr - 1 }) ∨
    (arrived = false ∧ c.waitTimeout = 0 ∧ r.await c arrived done = r) := by
  cases arrived
  · rcases Nat.eq_zero_or_pos c.waitTimeout with hw | hw
    · exact .inr (.inr (.inr ⟨rfl, hw, by simp [Regs.await, hw]⟩))
    · by_cases ht : r.tmr = 0
      · exact .inr (.inl ⟨rfl, hw, ht, by simp [Regs.await, hw, ht]⟩)
      · exact .inr (.inr (.inl ⟨rfl, hw, ht, by simp [Regs.await, hw, ht]⟩))
  · exact .inl ⟨rfl, by simp [Regs.await]⟩

/-- R131. -/
theorem raise_handshakeFail (r : Regs) :
    r.raise .handshakeFail =
      { r with respOk := false, valid := if r.seq then false else r.valid, phase := .idle } := rfl

/-- R132. -/
theorem raise_waitTimeout (r : Regs) :
    r.raise .waitTimeout = { r with tmo := true, valid := if r.seq then false else r.valid, phase := .idle } := rfl

/-- R129: the four ways a byte can end. -/
theorem endOfByte_cases (c : Config) (r : Regs) :
    (r.seq = false ∧ r.endOfByte c = { r with bitcnt := 0, phase := .idle }) ∨
    (r.seq = true ∧ r.bytecnt = 4 ∧
      r.endOfByte c =
        { r with bitcnt := 0, hum := r.hStg, temp := r.tStg, valid := true, bytecnt := 5, phase := .idle }) ∨
    (r.seq = true ∧ r.bytecnt ≠ 4 ∧
      r.endOfByte c =
        { r with
          bitcnt := 0
          hStg := if r.bytecnt = 0 then r.shreg else r.hStg
          tStg := if r.bytecnt = 2 then r.shreg else r.tStg
          bytecnt := r.bytecnt + 1
          phase := .bitRise
          tmr := wload c }) := by
  rcases r with ⟨p, q, t, bc, yc, sh, h1, t1, h2, t2, v, ro, tm, pv, o⟩
  cases q
  · exact .inl ⟨rfl, rfl⟩
  · by_cases h : yc = 4
    · subst h
      exact .inr (.inl ⟨rfl, rfl, rfl⟩)
    · refine .inr (.inr ⟨rfl, h, ?_⟩)
      simp only [Regs.endOfByte, Regs.enter, if_true, if_neg h]

/-- R128: the end of a slot that does not end its byte. -/
theorem endOfSlot_inner {r : Regs} (c : Config) (h : r.bitcnt ≠ 7) :
    r.endOfSlot c = { r with bitcnt := r.bitcnt + 1, phase := .bitRise, tmr := wload c } := by
  unfold Regs.endOfSlot
  rw [if_neg h]
  rfl

theorem endOfSlot_last {r : Regs} (c : Config) (h : r.bitcnt = 7) : r.endOfSlot c = r.endOfByte c := by
  unfold Regs.endOfSlot
  rw [if_pos h]

/-- WLOAD as one subtraction (R115). -/
theorem wload_eq (c : Config) : wload c = c.waitTimeout - 1 := by
  unfold wload
  split <;> omega

/-- The shifter in numbers: the old byte doubled, modulo 256, plus the new bit (R23). -/
theorem shiftIn_toNat (b : Byte) (lin : Bool) : (shiftIn b lin).toNat = (2 * b.toNat + lin.toNat) % 256 := by
  revert b lin
  decide

/-- The constraints of R6 and R11, spelled out. -/
theorem config_ok_iff (c : Config) :
    c.ok = true ↔
      (1 ≤ c.tStartLow ∧ c.tStartLow - 1 < 2 ^ c.tmrW) ∧
      (20 ≤ c.tStartHigh ∧ c.tStartHigh ≤ 40 ∧ c.tStartHigh - 1 < 2 ^ c.tmrW) ∧
      (1 ≤ c.tGuard ∧ c.tGuard < 2 ^ c.tmrW) ∧
      (1 ≤ c.tResp ∧ c.tResp - 1 < 2 ^ c.tmrW) ∧
      (1 ≤ c.tSample ∧ c.tSample - 1 < 2 ^ c.tmrW) ∧ c.waitTimeout ≤ 2 ^ c.tmrW := by
  simp only [Config.ok, Config.startLowOk, Config.startHighOk, Config.guardOk, Config.respOk, Config.sampleOk,
    Config.waitOk, Bool.and_eq_true, decide_eq_true_eq, and_assoc]

end Sys2Proof.Machine
end

