-- ==== Sys2Proof/Laws/Step.lean ====
section
/-! SUPPORT. What one tick can do, said once, and runs of many ticks. -/

namespace Sys2Proof.Machine

/-- R186: the three cases of a tick under a legal configuration. -/
theorem step_reset {s : State} (hc : s.cfg.ok = true) (hr : s.input.rst = true) : step s = .next s.resetTick := by
  simp [step, hc, hr]

theorem step_accept {s : State} (hc : s.cfg.ok = true) (hr : s.input.rst = false) (hp : s.regs.phase = .idle)
    (hv : s.input.cmdValid = true) : step s = exec (presentedCommand s.input) s := by
  simp [step, hc, hr, hp, hv]

theorem step_phase {s : State} (hc : s.cfg.ok = true) (hr : s.input.rst = false)
    (h : s.regs.phase ≠ .idle ∨ s.input.cmdValid = false) : step s = .next s.phaseStep := by
  have hn : ¬ (s.regs.phase = .idle ∧ s.input.cmdValid = true) := by
    rintro ⟨h1, h2⟩
    rcases h with h | h
    · exact h h1
    · simp [h2] at h
  simp [step, hc, hr, hn]

theorem step_refused {s : State} (hc : s.cfg.ok = false) : step s = .refused .illegalConfiguration := by
  simp [step, hc]

/-- The registers after the acceptance of a command, PREV aside (R115). -/
def acceptRegs (c : Config) (r : Regs) : Instr → Regs
  | .nop => r
  | .start => { r with seq := false, phase := .startLow, tmr := c.tStartLow - 1 }
  | .check => { r with seq := false, phase := .respGuard, tmr := c.tGuard }
  | .rdbyte => { r with seq := false, bitcnt := 0, tmo := false, phase := .bitRise, tmr := wload c }
  | .sample => { r with seq := true, bytecnt := 0, tmo := false, phase := .startLow, tmr := c.tStartLow - 1 }
  | .act soil => { r with out := actuate c r.temp soil }
  | .rsv6 => r
  | .rsv7 => r

/-- Every command answers a next state, whose registers are `acceptRegs` but for `PREV <- lin`. -/
theorem exec_eq (i : Instr) (s : State) : exec i s = .next (s.advance (acceptRegs s.cfg s.regs i)) := by
  cases i <;> rfl

/-- Everything a tick can do. -/
theorem step_cases {s t : State} (h : step s = .next t) :
    s.cfg.ok = true ∧
      ((s.input.rst = true ∧ t = s.resetTick) ∨
       (s.input.rst = false ∧ s.regs.phase = .idle ∧ s.input.cmdValid = true ∧
          t = s.advance (acceptRegs s.cfg s.regs (presentedCommand s.input))) ∨
       (s.input.rst = false ∧ (s.regs.phase ≠ .idle ∨ s.input.cmdValid = false) ∧ t = s.phaseStep)) := by
  cases hc : s.cfg.ok
  · simp [step_refused hc] at h
  refine ⟨rfl, ?_⟩
  cases hr : s.input.rst
  · by_cases hp : s.regs.phase = .idle
    · cases hv : s.input.cmdValid
      · rw [step_phase hc hr (.inr hv)] at h
        exact .inr (.inr ⟨rfl, .inr rfl, by simpa using h.symm⟩)
      · rw [step_accept hc hr hp hv, exec_eq] at h
        exact .inr (.inl ⟨rfl, hp, rfl, by simpa using h.symm⟩)
    · rw [step_phase hc hr (.inl hp)] at h
      exact .inr (.inr ⟨rfl, .inl hp, by simpa using h.symm⟩)
  · rw [step_reset hc hr] at h
    exact .inl ⟨rfl, by simpa using h.symm⟩

/-- A tick of a busy block without reset, in registers. -/
theorem step_busy {s : State} (hc : s.cfg.ok = true) (hr : s.input.rst = false) (hp : s.regs.phase ≠ .idle) :
    step s = .next (s.nextTick { s.regs.phaseTick s.cfg s.lin with prev := s.lin }) := by
  rw [step_phase hc hr (.inl hp)]
  rfl

@[simp] theorem runFor_zero (s : State) : runFor 0 s = .next s := rfl

theorem runFor_succ {s t : State} (k : Nat) (h : step s = .next t) : runFor (k + 1) s = runFor k t := by
  simp [runFor, h]

/-- A run in two parts. -/
theorem runFor_add {s t : State} {m : Nat} (n : Nat) (h : runFor m s = .next t) : runFor (m + n) s = runFor n t := by
  induction m generalizing s with
  | zero =>
    simp only [runFor_zero, Host.Outcome.next.injEq] at h
    simp [h]
  | succ m ih =>
    rw [Nat.add_right_comm]
    simp only [runFor] at h ⊢
    cases hs : step s with
    | next u =>
      rw [hs] at h
      exact ih h
    | fault r => simp [hs] at h
    | refused r => simp [hs] at h

/-- The host's runner is the model's. -/
theorem core_run_eq (k : Nat) (s : State) : Sys2Proof.core.run k s = runFor k s := by
  induction k generalizing s with
  | zero => rfl
  | succ k ih =>
    simp only [Host.Core.run, runFor]
    cases h : step s with
    | next t =>
      have h' : Sys2Proof.core.step s = .next t := h
      rw [h']
      exact ih t
    | fault r => cases r
    | refused r =>
      have h' : Sys2Proof.core.step s = .refused r := h
      rw [h']
      rfl

end Sys2Proof.Machine
end

