-- ==== Sys2Proof/Laws/Decode.lean ====
section
/-! SUPPORT. The fields of a command word (spec/30_encoding.md R80): split and put together again. -/

namespace Sys2Proof

/-- The bits of a word put together. -/
theorem wordOf_getLsbD (operand : Soil) (code : CmdCode) (i : Nat) :
    (wordOf operand code).getLsbD i = if i < 3 then code.getLsbD i else operand.getLsbD (i - 3) := by
  show (operand ++ code : BitVec (16 + 3)).getLsbD i = _
  rw [BitVec.getLsbD_append]

/-- The fields of a word put together are the fields given. -/
theorem fields_of_wordOf (operand : Soil) (code : CmdCode) :
    codeField (wordOf operand code) = code ∧ operandField (wordOf operand code) = operand := by
  constructor
  · apply BitVec.eq_of_getLsbD_eq
    intro i hi
    simp [codeField, wordOf_getLsbD, hi]
  · apply BitVec.eq_of_getLsbD_eq
    intro i hi
    simp [operandField, wordOf_getLsbD, hi]

/-- A word is its fields put together. -/
theorem wordOf_fields (cw : CmdWord) : wordOf (operandField cw) (codeField cw) = cw := by
  apply BitVec.eq_of_getLsbD_eq
  intro i hi
  by_cases h : i < 3
  · simp [codeField, wordOf_getLsbD, h]
  · have h1 : i - 3 < 16 := by omega
    have h2 : 3 + (i - 3) = i := by omega
    simp [operandField, wordOf_getLsbD, h, h1, h2]

/-- A word put together decodes by its fields. -/
theorem decodeWord_wordOf (operand : Soil) (code : CmdCode) :
    decodeWord (wordOf operand code) = decodeFields code operand := by
  simp [decodeWord, fields_of_wordOf]

end Sys2Proof
end

