-- ==== Sys2Proof/Laws/PerInstr.lean ====
section
/-! SUPPORT. The per-instruction family `EncodeFields`: the canonical word of a command carries its code and its
operand in the fields of R80. -/

namespace Sys2Proof.Laws.EncodeFields

/-- The fields of the canonical word (R80, R81, R92). -/
def Statement (i : Instr) : Prop := codeField (encode i) = i.code ∧ operandField (encode i) = i.operand

theorem nop : Statement .nop := fields_of_wordOf _ _
theorem start : Statement .start := fields_of_wordOf _ _
theorem check : Statement .check := fields_of_wordOf _ _
theorem rdbyte : Statement .rdbyte := fields_of_wordOf _ _
theorem sample : Statement .sample := fields_of_wordOf _ _
theorem act (soil : Soil) : Statement (.act soil) := fields_of_wordOf _ _
theorem rsv6 : Statement .rsv6 := fields_of_wordOf _ _
theorem rsv7 : Statement .rsv7 := fields_of_wordOf _ _

end Sys2Proof.Laws.EncodeFields
end

