-- ==== Sys2Proof/Laws/Phases.lean ====
section
/-! SUPPORT. What a phase rule can do, said once: `PhaseEffect` lists its cases by name, `phaseTick_effect` says that
there are no others, and `tick_cases` does the same for a whole tick. -/

namespace Sys2Proof.Machine

/-- The phases whose length TMR alone decides (R120). -/
def Phase.timed (p : Phase) : Bool :=
  match p with
  | .idle => false
  | .startLow => true
  | .startHigh => true
  | .respGuard => true
  | .respWait => true
  | .bitRise => false
  | .bitDelay => true
  | .bitFall => false

/-- A wait whose level has not come at this tick (R125, R128). -/
def Regs.stillWaits (c : Config) (lin : Bool) (r : Regs) : Prop :=
  (r.phase = .bitRise ∧ rise c.riseMode r.prev lin = false) ∨ (r.phase = .bitFall ∧ lin = true)

/-- The cases of `Regs.phaseTick`: the condition of each, and the registers it leaves (PREV aside). -/
inductive PhaseEffect (c : Config) (lin : Bool) (r : Regs) : Regs → Prop where
  | rest (hp : r.phase = .idle) : PhaseEffect c lin r r
  | count (hp : r.phase.timed = true) (ht : r.tmr ≠ 0) : PhaseEffect c lin r { r with tmr := r.tmr - 1 }
  | lowEnds (hp : r.phase = .startLow) (ht : r.tmr = 0) :
      PhaseEffect c lin r { r with phase := .startHigh, tmr := c.tStartHigh - 1 }
  | highGoesOn (hp : r.phase = .startHigh) (ht : r.tmr = 0) (hq : r.seq = true) :
      PhaseEffect c lin r { r with phase := .respGuard, tmr := c.tGuard }
  | highEnds (hp : r.phase = .startHigh) (ht : r.tmr = 0) (hq : r.seq = false) :
      PhaseEffect c lin r { r with phase := .idle }
  | firstSampleFails (hp : r.phase = .respGuard) (ht : r.tmr = 0) (hl : lin = true) :
      PhaseEffect c lin r
        { r with respOk := false, valid := if r.seq then false else r.valid, phase := .idle }
  | firstSamplePasses (hp : r.phase = .respGuard) (ht : r.tmr = 0) (hl : lin = false) :
      PhaseEffect c lin r { r with phase := .respWait, tmr := c.tResp - 1 }
  | secondSampleFails (hp : r.phase = .respWait) (ht : r.tmr = 0) (hl : lin = false) :
      PhaseEffect c lin r
        { r with respOk := false, valid := if r.seq then false else r.valid, phase := .idle }
  | responseGoesOn (hp : r.phase = .respWait) (ht : r.tmr = 0) (hl : lin = true) (hq : r.seq = true) :
      PhaseEffect c lin r { r with respOk := true, bitcnt := 0, phase := .bitRise, tmr := wload c }
  | responseEnds (hp : r.phase = .respWait) (ht : r.tmr = 0) (hl : lin = true) (hq : r.seq = false) :
      PhaseEffect c lin r { r with respOk := true, phase := .idle }
  | rises (hp : r.phase = .bitRise) (hr : rise c.riseMode r.prev lin = true) :
      PhaseEffect c lin r { r with phase := .bitDelay, tmr := c.tSample - 1 }
  | timesOut (hs : r.stillWaits c lin) (hw : 0 < c.waitTimeout) (ht : r.tmr = 0) :
      PhaseEffect c lin r
        { r with tmo := true, valid := if r.seq then false else r.valid, phase := .idle }
  | waitCounts (hs : r.stillWaits c lin) (hw : 0 < c.waitTimeout) (ht : r.tmr ≠ 0) :
      PhaseEffect c lin r { r with tmr := r.tmr - 1 }
  | waitHangs (hs : r.stillWaits c lin) (hw : c.waitTimeout = 0) : PhaseEffect c lin r r
  | samples (hp : r.phase = .bitDelay) (ht : r.tmr = 0) :
      PhaseEffect c lin r { r with shreg := shiftIn r.shreg lin, phase := .bitFall, tmr := wload c }
  | slotEnds (hp : r.phase = .bitFall) (hl : lin = false) (hb : r.bitcnt ≠ 7) :
      PhaseEffect c lin r { r with bitcnt := r.bitcnt + 1, phase := .bitRise, tmr := wload c }
  | byteEnds (hp : r.phase = .bitFall) (hl : lin = false) (hb : r.bitcnt = 7) (hq : r.seq = false) :
      PhaseEffect c lin r { r with bitcnt := 0, phase := .idle }
  | commits (hp : r.phase = .bitFall) (hl : lin = false) (hb : r.bitcnt = 7) (hq : r.seq = true)
      (hy : r.bytecnt = 4) :
      PhaseEffect c lin r
        { r with bitcnt := 0, hum := r.hStg, temp := r.tStg, valid := true, bytecnt := 5, phase := .idle }
  | nextByte (hp : r.phase = .bitFall) (hl : lin = false) (hb : r.bitcnt = 7) (hq : r.seq = true)
      (hy : r.bytecnt ≠ 4) :
      PhaseEffect c lin r
        { r with
          bitcnt := 0
          hStg := if r.bytecnt = 0 then r.shreg else r.hStg
          tStg := if r.bytecnt = 2 then r.shreg else r.tStg
          bytecnt := r.bytecnt + 1
          phase := .bitRise
          tmr := wload c }

/-- The timer's part of a timed phase: count, or the end action. -/
theorem timed_effect {c : Config} {lin : Bool} {r e : Regs} (hp : r.phase.timed = true)
    (he : r.tmr = 0 → PhaseEffect c lin r e) : PhaseEffect c lin r (r.timed e) := by
  rcases timed_cases r e with ⟨ht, h⟩ | ⟨ht, h⟩
  · rw [h]
    exact .count hp ht
  · rw [h]
    exact he ht

/-- The timeout's part of a wait: what a tick without the awaited level does. -/
theorem await_effect {c : Config} {lin arrived : Bool} {r done : Regs}
    (hs : arrived = false → r.stillWaits c lin) (hd : arrived = true → PhaseEffect c lin r done) :
    PhaseEffect c lin r (r.await c arrived done) := by
  rcases await_cases c r arrived done with ⟨ha, h⟩ | ⟨ha, hw, ht, h⟩ | ⟨ha, hw, ht, h⟩ | ⟨ha, hw, h⟩ <;> rw [h]
  · exact hd ha
  · exact .timesOut (hs ha) hw ht
  · exact .waitCounts (hs ha) hw ht
  · exact .waitHangs (hs ha) hw

/-- The end of a bit slot (R128, R129, R130). -/
theorem endOfSlot_effect {c : Config} {r : Regs} (hp : r.phase = .bitFall) :
    PhaseEffect c false r (r.endOfSlot c) := by
  by_cases hb : r.bitcnt = 7
  · rw [endOfSlot_last c hb]
    rcases endOfByte_cases c r with ⟨hq, h⟩ | ⟨hq, hy, h⟩ | ⟨hq, hy, h⟩ <;> rw [h]
    · exact .byteEnds hp rfl hb hq
    · exact .commits hp rfl hb hq hy
    · exact .nextByte hp rfl hb hq hy
  · rw [endOfSlot_inner c hb]
    exact .slotEnds hp rfl hb

/-- A phase rule does one of the listed things. -/
theorem phaseTick_effect (c : Config) (lin : Bool) (r : Regs) : PhaseEffect c lin r (r.phaseTick c lin) := by
  cases hp : r.phase <;> simp only [Regs.phaseTick, hp]
  case idle => exact .rest hp
  case startLow => exact timed_effect (by rw [hp]; rfl) (fun ht => .lowEnds hp ht)
  case startHigh =>
    refine timed_effect (by rw [hp]; rfl) (fun ht => ?_)
    cases hq : r.seq
    · exact .highEnds hp ht hq
    · exact .highGoesOn hp ht hq
  case respGuard =>
    refine timed_effect (by rw [hp]; rfl) (fun ht => ?_)
    cases lin
    · exact .firstSamplePasses hp ht rfl
    · exact .firstSampleFails hp ht rfl
  case respWait =>
    refine timed_effect (by rw [hp]; rfl) (fun ht => ?_)
    cases lin
    · exact .secondSampleFails hp ht rfl
    · by_cases hq : r.seq = true
      · rw [if_pos rfl, if_pos hq]
        exact .responseGoesOn hp ht rfl hq
      · rw [if_pos rfl, if_neg hq]
        exact .responseEnds hp ht rfl (by simpa using hq)
  case bitRise => exact await_effect (fun h => .inl ⟨hp, h⟩) (fun h => .rises hp h)
  case bitDelay => exact timed_effect (by rw [hp]; rfl) (fun ht => .samples hp ht)
  case bitFall =>
    cases lin
    · exact await_effect (fun h => by simp at h) (fun _ => endOfSlot_effect hp)
    · exact await_effect (fun _ => .inr ⟨hp, rfl⟩) (fun h => by simp at h)

/-- A tick that answers a next state does one of three things (R186), each with its registers. -/
theorem tick_cases {s t : State} (h : step s = .next t) :
    s.cfg.ok = true ∧ ∃ r, t = s.nextTick r ∧
      ((s.input.rst = true ∧ r = Regs.reset) ∨
       (s.input.rst = false ∧ s.regs.phase = .idle ∧ s.input.cmdValid = true ∧
          r = { acceptRegs s.cfg s.regs (presentedCommand s.input) with prev := s.lineAt 0 }) ∨
       (s.input.rst = false ∧ (s.regs.phase ≠ .idle ∨ s.input.cmdValid = false) ∧
          ∃ r', PhaseEffect s.cfg (s.lineAt 0) s.regs r' ∧ r = { r' with prev := s.lineAt 0 })) := by
  obtain ⟨hc, h | h | h⟩ := step_cases h
  · exact ⟨hc, _, h.2, .inl ⟨h.1, rfl⟩⟩
  · exact ⟨hc, _, h.2.2.2, .inr (.inl ⟨h.1, h.2.1, h.2.2.1, rfl⟩)⟩
  · exact ⟨hc, _, h.2.2, .inr (.inr ⟨h.1, h.2.1, _, phaseTick_effect _ _ _, rfl⟩)⟩

end Sys2Proof.Machine
end

