-- ==== Sys2Proof/Laws/Run.lean ====
section
/-! SUPPORT. Runs of many ticks of a busy block: how they compose, and how they end an operation. -/

namespace Sys2Proof.Machine

/-- `k` ticks lead from `s` to `t`, the block busy at each of them. The parameters stay, and the inputs of `t` are those
of `s` from tick `k` on. -/
structure BusyRun (s : State) (k : Nat) (t : State) : Prop where
  run : runFor k s = .next t
  cfg : t.cfg = s.cfg
  inputs : ∀ j, t.inputAt j = s.inputAt (k + j)
  busy : ∀ j, j < k → ∃ u, runFor j s = .next u ∧ u.regs.phase ≠ .idle

namespace BusyRun

theorem refl (s : State) : BusyRun s 0 s :=
  ⟨rfl, rfl, fun j => by rw [Nat.zero_add], fun j hj => absurd hj (Nat.not_lt_zero j)⟩

theorem trans {s t u : State} {m n : Nat} (h1 : BusyRun s m t) (h2 : BusyRun t n u) : BusyRun s (m + n) u := by
  refine ⟨by rw [runFor_add n h1.run]; exact h2.run, h2.cfg.trans h1.cfg, fun j => ?_, fun j hj => ?_⟩
  · rw [h2.inputs, h1.inputs, Nat.add_assoc]
  · rcases Nat.lt_or_ge j m with h | h
    · exact h1.busy j h
    · obtain ⟨v, hv, hp⟩ := h2.busy (j - m) (by omega)
      refine ⟨v, ?_, hp⟩
      have e : j = m + (j - m) := by omega
      rw [e, runFor_add _ h1.run]
      exact hv

/-- One tick of a busy block. -/
theorem one {s : State} {r : Regs} (hp : s.regs.phase ≠ .idle) (h : step s = .next (s.nextTick r)) :
    BusyRun s 1 (s.nextTick r) := by
  refine ⟨by rw [runFor_succ 0 h, runFor_zero], rfl, fun j => ?_, fun j hj => ⟨s, ?_, hp⟩⟩
  · rw [inputAt_nextTick, Nat.add_comm]
  · have e : j = 0 := by omega
    rw [e, runFor_zero]

theorem lineAt {s t : State} {k : Nat} (h : BusyRun s k t) (j : Nat) : t.lineAt j = s.lineAt (k + j) := by
  simp only [State.lineAt, h.inputs]

theorem noReset {s t : State} {k n : Nat} (h : BusyRun s k t) (hr : s.noReset (k + n)) : t.noReset n := by
  intro j hj
  rw [h.inputs]
  exact hr (k + j) (by omega)

/-- The tick before the end of a run shows in PREV what the line was (R39). -/
theorem riseAt {s t : State} {k : Nat} (h : BusyRun s k t) (hprev : 0 < k → t.regs.prev = s.lineAt (k - 1))
    (h0 : k = 0 → t.regs.prev = s.regs.prev) (j : Nat) : t.riseAt j = s.riseAt (k + j) := by
  have hl : ∀ i, t.lineAt i = s.lineAt (k + i) := h.lineAt
  unfold State.riseAt
  simp only [h.cfg, hl]
  by_cases hj : j = 0
  · subst hj
    by_cases hk : k = 0
    · simp [hk, h0 hk]
    · simp [hprev (by omega), hk]
  · have hkj : k + j ≠ 0 := by omega
    have e : k + (j - 1) = k + j - 1 := by omega
    simp only [if_neg hj, if_neg hkj, e]

end BusyRun

/-- A phase rule's tick as a run of one tick. -/
theorem busy_tick {s : State} {p : Phase} (hc : s.cfg.ok = true) (hr : s.input.rst = false) (hp : s.regs.phase = p)
    (hi : p ≠ .idle) :
    BusyRun s 1 (s.nextTick { s.regs.phaseTick s.cfg (s.lineAt 0) with prev := s.lineAt 0 }) :=
  BusyRun.one (by rw [hp]; exact hi) (step_busy hc hr (by rw [hp]; exact hi))

/-- An operation's end (R227): the acceptance, then a busy run that ends in IDLE. -/
theorem endsAt_of_run {s t : State} {r : Regs} {k : Nat} (h : step s = .next (s.nextTick r))
    (hk : BusyRun (s.nextTick r) k t) (hi : t.regs.phase = .idle) : s.EndsAt (k + 1) t.regs := by
  refine ⟨by omega, fun j h1 hj => ?_, t, by rw [runFor_succ k h]; exact hk.run, rfl, hi⟩
  obtain ⟨u, hu, hp⟩ := hk.busy (j - 1) (by omega)
  refine ⟨u, ?_, hp⟩
  have e : j = (j - 1) + 1 := by omega
  rw [e, runFor_succ _ h]
  exact hu

/-- The tick of acceptance (R110, R115). -/
theorem accept_step {s : State} {i : Instr} (h : s.Accepts i) :
    step s = .next (s.nextTick { acceptRegs s.cfg s.regs i with prev := s.lineAt 0 }) := by
  rw [step_accept h.legal h.running h.idle h.presented, h.word, exec_eq]
  rfl

end Sys2Proof.Machine
end

