-- ==== Sys2Proof/Tests/Slice0.lean ====
section
/-! SUPPORT. The model's own tests: ill-formed terms refused, words written out from the encoding, one step per
command with the values of spec/95_test_vectors.md, and a witness for the hypotheses of every statement that has any
(for each clause, at a boundary of its range). -/

namespace Sys2Proof.Tests

open Sys2Proof Sys2Proof.Machine

/-! ### Well-formedness: one ill-formed term per check -/

theorem test_refuses_start_low_zero : Config.ok { Config.defaults with tStartLow := 0 } = false := by decide
theorem test_refuses_start_low_over_timer : Config.ok { Config.defaults with tStartLow := 32769 } = false := by decide
theorem test_refuses_start_high_under_20 : Config.ok { Config.defaults with tStartHigh := 19 } = false := by decide
theorem test_refuses_start_high_over_40 : Config.ok { Config.defaults with tStartHigh := 41 } = false := by decide
theorem test_refuses_guard_zero : Config.ok { Config.defaults with tGuard := 0 } = false := by decide
theorem test_refuses_guard_over_timer : Config.ok { Config.defaults with tGuard := 32768 } = false := by decide
theorem test_refuses_resp_zero : Config.ok { Config.defaults with tResp := 0 } = false := by decide
theorem test_refuses_resp_over_timer : Config.ok { Config.defaults with tResp := 32769 } = false := by decide
theorem test_refuses_sample_zero : Config.ok { Config.defaults with tSample := 0 } = false := by decide
theorem test_refuses_sample_over_timer : Config.ok { Config.defaults with tSample := 32769 } = false := by decide
theorem test_refuses_wait_over_timer : Config.ok { Config.defaults with waitTimeout := 32769 } = false := by decide
theorem test_refuses_narrow_timer : Config.ok { Config.defaults with tmrW := 14 } = false := by decide
theorem test_refuses_word_of_20_bits : decode 0x80000 = .error .wordTooWide := by rfl
theorem test_defaults_are_legal : Config.ok Config.defaults = true := by decide

/-! ### Decoding: words written out from R80 to R82 and R92, operand bits first, then the three code bits -/

theorem test_decode_nop : decodeWord 0b0000000000000000_000 = .nop := by decide
theorem test_decode_start : decodeWord 0b0000000000000000_001 = .start := by decide
theorem test_decode_check : decodeWord 0b0000000000000000_010 = .check := by decide
theorem test_decode_rdbyte : decodeWord 0b0000000000000000_011 = .rdbyte := by decide
theorem test_decode_sample : decodeWord 0b0000000000000000_100 = .sample := by decide
/-- `ACT #800` is 0x01905 (DV10e). -/
theorem test_decode_act_800 : decodeWord 0b0000001100100000_101 = .act 800 := by decide
/-- `ACT #65535` is 0x7FFFD (DV10e). -/
theorem test_decode_act_max : decodeWord 0b1111111111111111_101 = .act 65535 := by decide
theorem test_decode_rsv6 : decodeWord 0b0000000001111011_110 = .rsv6 := by decide
theorem test_decode_rsv7 : decodeWord 0b1111111111111111_111 = .rsv7 := by decide
/-- The operand bits of a command without operand are not looked at (R81, DV10b). -/
theorem test_decode_ignores_operand : decodeWord 0b1111111111111111_011 = .rdbyte := by decide
/-- The words of DV10e, encoded. -/
theorem test_encode_act : encode (.act 0) = 0x00005 ∧ encode (.act 701) = 0x015ED ∧ encode (.act 1023) = 0x01FFD := by
  decide
theorem test_table_word : decodeTableWord 24 0x01905 = some (.act 800) ∧ decodeTableWord 24 0x80000 = none := by decide

/-! ### Small states -/

/-- A quiet tick: no reset, no command, the line at a level. -/
def quiet (level : Bool) : Inputs := { rst := false, cmdValid := false, cmd := 0, operand := 0, line := level }

/-- A tick at which a word is presented. -/
def word (cw : CmdWord) (level : Bool) : Inputs :=
  { rst := false, cmdValid := true, cmd := codeField cw, operand := operandField cw, line := level }

/-- The defaults with every duration as short as R6 allows. -/
def tiny : Config :=
  { Config.defaults with tStartLow := 1, tStartHigh := 20, tGuard := 1, tResp := 1, tSample := 1 }

/-- `tiny` with bounded waits. -/
def bounded (n : Nat) : Config := { tiny with waitTimeout := n }

/-- A block that saw a good SAMPLE and an ACT before: no register at its reset value but PHASE and TMR. -/
def used : Regs :=
  { Regs.reset with
    seq := true, bitcnt := 3, bytecnt := 5, shreg := 0x55, hStg := 55, tStg := 30, hum := 40, temp := 20
    valid := true, respOk := true, out := 0b00001 }

/-- A block at tick 0. -/
def block (c : Config) (r : Regs) (ins : List Inputs) : State := { regs := r, cfg := c, inputs := ins, tick := 0 }

/-- The registers after some ticks. -/
def regsAfter (k : Nat) (s : State) : Option Regs :=
  match runFor k s with
  | .next t => some t.regs
  | .fault _ => none
  | .refused _ => none

/-! ### One step per command -/

/-- DV1: TMR = 17999 at tick 1; SEQ is cleared; nothing else but PREV. -/
theorem test_start : regsAfter 1 (block Config.defaults used [word 0x00001 false]) =
    some { used with seq := false, phase := .startLow, tmr := 17999, prev := false } := by decide

/-- DV2: RESP_GUARD from tick 1 with 41 ticks to go. -/
theorem test_check : regsAfter 1 (block Config.defaults used [word 0x00002 true]) =
    some { used with seq := false, phase := .respGuard, tmr := 40 } := by decide

/-- DV3e: BIT_RISE with TMR 99 for WAIT_TIMEOUT = 100; TMO and BITCNT are cleared. -/
theorem test_rdbyte : regsAfter 1 (block (bounded 100) { used with tmo := true } [word 0x00003 true]) =
    some { used with seq := false, phase := .bitRise, tmr := 99, bitcnt := 0 } := by decide

/-- DV4, tick 1. -/
theorem test_sample : regsAfter 1 (block Config.defaults { used with seq := false } [word 0x00004 true]) =
    some { used with phase := .startLow, tmr := 17999, bytecnt := 0 } := by decide

/-- DV5: TEMP = 20 and `ACT #700` give OUT = 0 0 0 0 1. -/
theorem test_act_safe : regsAfter 1 (block Config.defaults { used with out := 0 } [word 0x015E5 true]) =
    some { used with out := 0b00001 } := by decide

/-- SV4, SV5: the three tiers, and the pump at 700 and 701. -/
theorem test_actuate_boundaries :
    actuate Config.defaults 24 700 = 0b00001 ∧ actuate Config.defaults 25 700 = 0b00010 ∧
      actuate Config.defaults 26 700 = 0b01100 ∧ actuate Config.defaults 26 701 = 0b11100 ∧
      actuate Config.defaults 24 65535 = 0b10001 := by decide

/-- DV10b: NOP and the reserved codes leave every register but PREV. -/
theorem test_nop : regsAfter 1 (block Config.defaults used [word 0x7FFF8 false]) = some { used with prev := false } := by
  decide
theorem test_rsv6 : regsAfter 1 (block Config.defaults used [word 0x003DE false]) = some { used with prev := false } := by
  decide
theorem test_rsv7 : regsAfter 1 (block Config.defaults used [word 0x7FFFF false]) = some { used with prev := false } := by
  decide

/-! ### One tick of what follows a command -/

/-- DV11: reset in a bit slot, with a word presented at the same tick and the line low. -/
theorem test_reset_beats_all :
    regsAfter 1 (block tiny { used with phase := .bitDelay } [{ word 0x01905 false with rst := true }]) =
      some Regs.reset := by decide

/-- DV4, tick 21850: the commit of F1. -/
theorem test_commit :
    regsAfter 1 (block tiny { used with phase := .bitFall, bitcnt := 7, bytecnt := 4 } [quiet false]) =
      some { used with phase := .idle, bitcnt := 0, hum := 55, temp := 30, prev := false } := by decide

/-- DV4: the fortieth sample, 1 after 0x2A, gives 0x55. -/
theorem test_shift : shiftIn 0x2A true = 0x55 ∧ shiftIn 0xFF false = 0xFE := by decide

/-- DV8d: a wait timeout in BIT_FALL inside SAMPLE. -/
theorem test_wait_timeout :
    regsAfter 1 (block (bounded 5) { used with phase := .bitFall } [quiet true]) =
      some { used with valid := false, tmo := true } := by decide

/-! ### Witnesses: the hypotheses of the statements hold together -/

/-- A listed run without `rst`. -/
theorem noReset_of_listed {s : State} {n : Nat} (hn : n ≤ s.inputs.length)
    (h : s.inputs.all (fun inp => !inp.rst) = true) : s.noReset n := by
  intro j hj
  have hlt : j < s.inputs.length := by omega
  have hin : s.inputAt j = s.inputs[j] := by simp [State.inputAt, List.getElem?_eq_getElem hlt]
  have hx := List.all_eq_true.mp h s.inputs[j] (List.getElem_mem hlt)
  rw [hin]
  simpa using hx

/-- A listed waveform. -/
theorem lineFollows_of_listed {s : State} {start : Nat} {w : List Bool}
    (h : (s.inputs.drop start).map Inputs.line = w) : s.lineFollows start w := by
  intro j hj
  subst h
  have hlt : start + j < s.inputs.length := by
    simp only [List.length_map, List.length_drop] at hj
    omega
  simp [State.lineAt, State.inputAt, List.getElem?_eq_getElem hlt]

theorem witness_DecodeOfEncode : (Instr.act 65535).wf = true ∧ 19 ≤ 24 := by decide

theorem witness_EncodeOfDecodeIsCanonical_act : (0x7FFFD : CmdWord).toNat % 8 = 5 := by decide
theorem witness_EncodeOfDecodeIsCanonical_other : (0x7FFFF : CmdWord).toNat % 8 ≠ 5 := by decide

theorem witness_DecodeReadsCodeAndSoilOnly_same :
    (0x003DE : CmdWord) ≠ 0x00006 ∧ (0x003DE : CmdWord).toNat % 8 = (0x00006 : CmdWord).toNat % 8 ∧
      decodeWord 0x003DE = decodeWord 0x00006 := by decide
theorem witness_DecodeReadsCodeAndSoilOnly_apart : decodeWord 0x00005 ≠ decodeWord 0x0000D := by decide

/-- An idle block with `ACT #800` on its ports. -/
def offered : State := block Config.defaults used [word 0x01905 true]

theorem witness_StepRunsPresentedCommand :
    offered.cfg.ok = true ∧ (Instr.act 800).wf = true ∧ offered.input.rst = false ∧ offered.regs.phase = .idle ∧
      offered.input.cmdValid = true ∧ decodeWord (wordOf offered.input.operand offered.input.cmd) = .act 800 := by
  decide

theorem witness_PresentedTableWordIsRun :
    State.reset.cfg.ok = true ∧ decodeTableWord 24 0x01905 = some (.act 800) := by decide

theorem witness_ResetWinsOverEverything :
    (block tiny used [{ word 0x01905 false with rst := true }]).cfg.ok = true ∧
      (block tiny used [{ word 0x01905 false with rst := true }]).input.rst = true := by decide

theorem witness_BusyIgnoresCommandPort :
    { used with phase := .bitRise }.phase ≠ .idle ∧ quiet true ≠ word 0x01905 true ∧
      (quiet true).rst = (word 0x01905 true).rst ∧ (quiet true).line = (word 0x01905 true).line := by decide

theorem witness_IdleWritesPrevOnly :
    (block tiny used [quiet false]).cfg.ok = true ∧ (block tiny used [quiet false]).input.rst = false ∧
      (block tiny used [quiet false]).regs.phase = .idle ∧ (block tiny used [quiet false]).input.cmdValid = false := by
  decide

/-- Each constraint of R11 broken at its boundary. -/
theorem witness_IllegalConfigurationIsRefused :
    (0 < 1 ∧ 2 ^ 15 ≤ 32769 - 1 ∧ 2 ^ 15 ≤ 32768) ∧
      { Config.defaults with tStartLow := 0 }.tStartLow < 1 ∧ { Config.defaults with tStartHigh := 0 }.tStartHigh < 1 ∧
      { Config.defaults with tGuard := 0 }.tGuard < 1 ∧ { Config.defaults with tResp := 0 }.tResp < 1 ∧
      { Config.defaults with tSample := 0 }.tSample < 1 ∧
      2 ^ Config.defaults.tmrW ≤ { Config.defaults with tStartLow := 32769 }.tStartLow - 1 ∧
      2 ^ Config.defaults.tmrW ≤ { Config.defaults with tStartHigh := 32769 }.tStartHigh - 1 ∧
      2 ^ Config.defaults.tmrW ≤ { Config.defaults with tGuard := 32768 }.tGuard ∧
      2 ^ Config.defaults.tmrW ≤ { Config.defaults with tResp := 32769 }.tResp - 1 ∧
      2 ^ Config.defaults.tmrW ≤ { Config.defaults with tSample := 32769 }.tSample - 1 ∧
      (0 < { Config.defaults with waitTimeout := 32769 }.waitTimeout ∧
        2 ^ Config.defaults.tmrW ≤ { Config.defaults with waitTimeout := 32769 }.waitTimeout - 1) := by decide

/-- The hypothesis of EveryTickAnswersNext, in the shape it has there. -/
def withinRanges (c : Config) : Prop :=
  1 ≤ c.tStartLow ∧ c.tStartLow ≤ 2 ^ c.tmrW ∧ 20 ≤ c.tStartHigh ∧ c.tStartHigh ≤ 40 ∧ c.tStartHigh ≤ 2 ^ c.tmrW ∧
    1 ≤ c.tGuard ∧ c.tGuard ≤ 2 ^ c.tmrW - 1 ∧ 1 ≤ c.tResp ∧ c.tResp ≤ 2 ^ c.tmrW ∧ 1 ≤ c.tSample ∧
    c.tSample ≤ 2 ^ c.tmrW ∧ c.waitTimeout ≤ 2 ^ c.tmrW

theorem witness_EveryTickAnswersNext_low : withinRanges tiny := by unfold withinRanges; decide
theorem witness_EveryTickAnswersNext_high : withinRanges
    { Config.defaults with
      tmrW := 6, tStartLow := 64, tStartHigh := 40, tGuard := 63, tResp := 64, tSample := 64, waitTimeout := 64 } := by
  unfold withinRanges
  decide

/-- Two blocks that agree on TEMP alone. -/
theorem witness_ActReadsTempAndSoilOnly :
    (block tiny used []).cfg.soilThreshold = (block Config.defaults { Regs.reset with temp := 20 } []).cfg.soilThreshold ∧
      (block tiny used []).cfg.tempLimit = (block Config.defaults { Regs.reset with temp := 20 } []).cfg.tempLimit ∧
      (block tiny used []).regs.temp = (block Config.defaults { Regs.reset with temp := 20 } []).regs.temp ∧
      (block tiny used []).regs.out ≠ (block Config.defaults { Regs.reset with temp := 20 } []).regs.out := by decide

/-- A block in a phase, with two quiet ticks to come. -/
def inPhase (c : Config) (p : Phase) (tmr : Nat) (level : Bool) : State :=
  block c { used with phase := p, tmr := tmr } [quiet level, quiet level]

theorem noReset_inPhase (c : Config) (p : Phase) (tmr : Nat) (level : Bool) (n : Nat) (hn : n ≤ 2) :
    (inPhase c p tmr level).noReset n := noReset_of_listed hn rfl

/-- Each timed phase, for k at its largest. -/
theorem witness_TimedPhaseCountsDown (p : Phase)
    (hp : p = .startLow ∨ p = .startHigh ∨ p = .respGuard ∨ p = .respWait ∨ p = .bitDelay) :
    (inPhase tiny p 2 true).cfg.ok = true ∧
      ((inPhase tiny p 2 true).regs.phase = .startLow ∨ (inPhase tiny p 2 true).regs.phase = .startHigh ∨
        (inPhase tiny p 2 true).regs.phase = .respGuard ∨ (inPhase tiny p 2 true).regs.phase = .respWait ∨
        (inPhase tiny p 2 true).regs.phase = .bitDelay) ∧
      2 ≤ (inPhase tiny p 2 true).regs.tmr ∧ (inPhase tiny p 2 true).noReset 2 :=
  ⟨(by decide : tiny.ok = true), hp, Nat.le_refl 2, noReset_inPhase tiny p 2 true 2 (Nat.le_refl 2)⟩

/-- The end tick of a timed phase: what the statements about the phases' ends assume. -/
theorem witness_phase_ends (p : Phase) (level : Bool) :
    (inPhase tiny p 0 level).cfg.ok = true ∧ (inPhase tiny p 0 level).input.rst = false ∧
      (inPhase tiny p 0 level).regs.tmr = 0 ∧ (inPhase tiny p 0 level).regs.phase = p ∧
      (inPhase tiny p 0 level).lineAt 0 = level ∧ (inPhase tiny p 0 level).regs.seq = true :=
  ⟨rfl, rfl, rfl, rfl, rfl, rfl⟩

/-- The same outside SAMPLE. -/
def standalone (p : Phase) (level : Bool) : State := block tiny { used with phase := p, seq := false } [quiet level]

theorem witness_StartPhasesEnd_low :
    (inPhase tiny .startLow 0 true).cfg.ok = true ∧ (inPhase tiny .startLow 0 true).input.rst = false ∧
      (inPhase tiny .startLow 0 true).regs.tmr = 0 ∧ (inPhase tiny .startLow 0 true).regs.phase = .startLow := by decide
theorem witness_StartPhasesEnd_sample :
    (inPhase tiny .startHigh 0 true).cfg.ok = true ∧ (inPhase tiny .startHigh 0 true).input.rst = false ∧
      (inPhase tiny .startHigh 0 true).regs.tmr = 0 ∧ (inPhase tiny .startHigh 0 true).regs.phase = .startHigh ∧
      (inPhase tiny .startHigh 0 true).regs.seq = true := by decide
theorem witness_StartPhasesEnd_start :
    (standalone .startHigh true).cfg.ok = true ∧ (standalone .startHigh true).input.rst = false ∧
      (standalone .startHigh true).regs.tmr = 0 ∧ (standalone .startHigh true).regs.phase = .startHigh ∧
      (standalone .startHigh true).regs.seq = false := by decide

theorem witness_ResponseSamplesPass_first :
    (inPhase tiny .respGuard 0 false).cfg.ok = true ∧ (inPhase tiny .respGuard 0 false).input.rst = false ∧
      (inPhase tiny .respGuard 0 false).regs.tmr = 0 ∧ (inPhase tiny .respGuard 0 false).regs.phase = .respGuard ∧
      (inPhase tiny .respGuard 0 false).lineAt 0 = false := by decide
theorem witness_ResponseSamplesPass_sample :
    (inPhase tiny .respWait 0 true).cfg.ok = true ∧ (inPhase tiny .respWait 0 true).input.rst = false ∧
      (inPhase tiny .respWait 0 true).regs.tmr = 0 ∧ (inPhase tiny .respWait 0 true).regs.phase = .respWait ∧
      (inPhase tiny .respWait 0 true).lineAt 0 = true ∧ (inPhase tiny .respWait 0 true).regs.seq = true := by decide
theorem witness_ResponseSamplesPass_check :
    (standalone .respWait true).cfg.ok = true ∧ (standalone .respWait true).input.rst = false ∧
      (standalone .respWait true).regs.tmr = 0 ∧ (standalone .respWait true).regs.phase = .respWait ∧
      (standalone .respWait true).lineAt 0 = true ∧ (standalone .respWait true).regs.seq = false := by decide

theorem witness_HandshakeFailWrites_first :
    (inPhase tiny .respGuard 0 true).cfg.ok = true ∧ (inPhase tiny .respGuard 0 true).input.rst = false ∧
      (inPhase tiny .respGuard 0 true).regs.tmr = 0 ∧
      ((inPhase tiny .respGuard 0 true).regs.phase = .respGuard ∧ (inPhase tiny .respGuard 0 true).lineAt 0 = true) := by
  decide
theorem witness_HandshakeFailWrites_second :
    (inPhase tiny .respWait 0 false).cfg.ok = true ∧ (inPhase tiny .respWait 0 false).input.rst = false ∧
      (inPhase tiny .respWait 0 false).regs.tmr = 0 ∧
      ((inPhase tiny .respWait 0 false).regs.phase = .respWait ∧ (inPhase tiny .respWait 0 false).lineAt 0 = false) := by
  decide

/-- A rise in mode edge: high now, low one tick ago. -/
def rising : State := block tiny { used with phase := .bitRise, prev := false } [quiet true]
/-- A standing high in mode level. -/
def standing : State := block { tiny with riseMode := .level } { used with phase := .bitRise } [quiet true]

theorem witness_BitRiseWaitsForRise_edge :
    rising.cfg.ok = true ∧ rising.input.rst = false ∧ rising.regs.phase = .bitRise ∧
      (rising.lineAt 0 = true ∧ (rising.cfg.riseMode = .level ∨ rising.regs.prev = false)) := by decide
theorem witness_BitRiseWaitsForRise_level :
    standing.cfg.ok = true ∧ standing.input.rst = false ∧ standing.regs.phase = .bitRise ∧
      (standing.lineAt 0 = true ∧ (standing.cfg.riseMode = .level ∨ standing.regs.prev = false)) := by decide
theorem witness_BitRiseWaitsForRise_counts :
    (inPhase (bounded 2) .bitRise 1 true).cfg.ok = true ∧ (inPhase (bounded 2) .bitRise 1 true).input.rst = false ∧
      (inPhase (bounded 2) .bitRise 1 true).regs.phase = .bitRise ∧
      ¬ ((inPhase (bounded 2) .bitRise 1 true).lineAt 0 = true ∧
        ((inPhase (bounded 2) .bitRise 1 true).cfg.riseMode = .level ∨
          (inPhase (bounded 2) .bitRise 1 true).regs.prev = false)) ∧
      0 < (inPhase (bounded 2) .bitRise 1 true).cfg.waitTimeout ∧
      (inPhase (bounded 2) .bitRise 1 true).regs.tmr ≠ 0 := by decide
theorem witness_BitRiseWaitsForRise_hangs :
    (inPhase tiny .bitRise 0 false).cfg.ok = true ∧ (inPhase tiny .bitRise 0 false).input.rst = false ∧
      (inPhase tiny .bitRise 0 false).regs.phase = .bitRise ∧
      ¬ ((inPhase tiny .bitRise 0 false).lineAt 0 = true ∧
        ((inPhase tiny .bitRise 0 false).cfg.riseMode = .level ∨ (inPhase tiny .bitRise 0 false).regs.prev = false)) ∧
      (inPhase tiny .bitRise 0 false).cfg.waitTimeout = 0 := by decide

theorem witness_BitDelaySamples :
    (inPhase tiny .bitDelay 0 true).cfg.ok = true ∧ (inPhase tiny .bitDelay 0 true).input.rst = false ∧
      (inPhase tiny .bitDelay 0 true).regs.phase = .bitDelay ∧ (inPhase tiny .bitDelay 0 true).regs.tmr = 0 := by decide

/-- BIT_FALL with the seventh slot's bit shifted in, the last that does not end the byte. -/
def seventh : State := block tiny { used with phase := .bitFall, bitcnt := 6 } [quiet false]

theorem witness_BitFallWaitsForLow_ends :
    seventh.cfg.ok = true ∧ seventh.input.rst = false ∧ seventh.regs.phase = .bitFall ∧ seventh.lineAt 0 = false ∧
      seventh.regs.bitcnt ≠ 7 := by decide
theorem witness_BitFallWaitsForLow_counts :
    (inPhase (bounded 2) .bitFall 1 true).cfg.ok = true ∧ (inPhase (bounded 2) .bitFall 1 true).input.rst = false ∧
      (inPhase (bounded 2) .bitFall 1 true).regs.phase = .bitFall ∧
      (inPhase (bounded 2) .bitFall 1 true).lineAt 0 = true ∧
      0 < (inPhase (bounded 2) .bitFall 1 true).cfg.waitTimeout ∧
      (inPhase (bounded 2) .bitFall 1 true).regs.tmr ≠ 0 := by decide
theorem witness_BitFallWaitsForLow_hangs :
    (inPhase tiny .bitFall 0 true).cfg.ok = true ∧ (inPhase tiny .bitFall 0 true).input.rst = false ∧
      (inPhase tiny .bitFall 0 true).regs.phase = .bitFall ∧ (inPhase tiny .bitFall 0 true).lineAt 0 = true ∧
      (inPhase tiny .bitFall 0 true).cfg.waitTimeout = 0 := by decide

/-- The tick that ends byte `k`. -/
def byteEnd (seq : Bool) (k : BitVec 3) : State :=
  block tiny { used with phase := .bitFall, seq := seq, bitcnt := 7, bytecnt := k } [quiet false]

theorem witness_EndOfByteStagesOrEnds_alone :
    (byteEnd false 4).cfg.ok = true ∧ (byteEnd false 4).input.rst = false ∧ (byteEnd false 4).regs.phase = .bitFall ∧
      (byteEnd false 4).lineAt 0 = false ∧ (byteEnd false 4).regs.bitcnt = 7 ∧ (byteEnd false 4).regs.seq = false := by
  decide
theorem witness_EndOfByteStagesOrEnds_sample (k : BitVec 3) (hk : k = 0 ∨ k = 2 ∨ k = 3) :
    (byteEnd true k).cfg.ok = true ∧ (byteEnd true k).input.rst = false ∧ (byteEnd true k).regs.phase = .bitFall ∧
      (byteEnd true k).lineAt 0 = false ∧ (byteEnd true k).regs.bitcnt = 7 ∧ (byteEnd true k).regs.seq = true ∧
      (byteEnd true k).regs.bytecnt ≠ 4 := by
  refine ⟨rfl, rfl, rfl, rfl, rfl, rfl, ?_⟩
  show k ≠ 4
  rcases hk with rfl | rfl | rfl <;> decide

theorem witness_CommitWritesReading :
    (byteEnd true 4).cfg.ok = true ∧ (byteEnd true 4).input.rst = false ∧ (byteEnd true 4).commitsNow := by decide

theorem witness_WaitTimeoutWrites_rise :
    (inPhase (bounded 1) .bitRise 0 true).cfg.ok = true ∧ (inPhase (bounded 1) .bitRise 0 true).input.rst = false ∧
      (inPhase (bounded 1) .bitRise 0 true).timesOutNow := by decide
theorem witness_WaitTimeoutWrites_fall :
    (inPhase (bounded 1) .bitFall 0 true).cfg.ok = true ∧ (inPhase (bounded 1) .bitFall 0 true).input.rst = false ∧
      (inPhase (bounded 1) .bitFall 0 true).timesOutNow := by decide

/-- A pulse of `w` ticks from a rise on, then low: the threshold of `tiny` is two ticks. -/
def pulseOf (w : Nat) : State :=
  block tiny { used with phase := .bitRise, prev := false }
    (List.replicate w (quiet true) ++ List.replicate (2 - w) (quiet false))

theorem witness_PulseWidthDecidesBit (w : Nat) (hw : w = 1 ∨ w = 2) :
    (pulseOf w).cfg.ok = true ∧ (pulseOf w).regs.phase = .bitRise ∧ (pulseOf w).riseAt 0 = true ∧
      (pulseOf w).noReset ((pulseOf w).cfg.tSample + 1) ∧ 1 ≤ w ∧ (∀ j, j < w → (pulseOf w).lineAt j = true) ∧
      (∀ j, w ≤ j → j ≤ (pulseOf w).cfg.tSample → (pulseOf w).lineAt j = false) := by
  rcases hw with rfl | rfl
  · refine ⟨by decide, rfl, rfl, noReset_of_listed (by decide) rfl, by decide, by decide, ?_⟩
    intro j h1 h2
    have h3 : j ≤ 1 := h2
    have h4 : j = 1 := by omega
    subst h4
    rfl
  · refine ⟨by decide, rfl, rfl, noReset_of_listed (by decide) rfl, by decide, by decide, ?_⟩
    intro j h1 h2
    have h3 : j ≤ 1 := h2
    omega

/-- A word presented to an idle block, then a waveform. -/
def started (c : Config) (cw : CmdWord) (wave : List Bool) : State :=
  block c used (word cw false :: wave.map quiet)

theorem accepts_start (c : Config) (wave : List Bool) (hc : c.ok = true) :
    (started c 0x00001 wave).Accepts .start :=
  ⟨hc, rfl, rfl, rfl, (by decide : presentedCommand (word 0x00001 false) = .start)⟩
theorem accepts_check (c : Config) (wave : List Bool) (hc : c.ok = true) :
    (started c 0x00002 wave).Accepts .check :=
  ⟨hc, rfl, rfl, rfl, (by decide : presentedCommand (word 0x00002 false) = .check)⟩
theorem accepts_rdbyte (c : Config) (wave : List Bool) (hc : c.ok = true) :
    (started c 0x00003 wave).Accepts .rdbyte :=
  ⟨hc, rfl, rfl, rfl, (by decide : presentedCommand (word 0x00003 false) = .rdbyte)⟩
theorem accepts_sample (c : Config) (wave : List Bool) (hc : c.ok = true) :
    (started c 0x00004 wave).Accepts .sample :=
  ⟨hc, rfl, rfl, rfl, (by decide : presentedCommand (word 0x00004 false) = .sample)⟩

theorem noReset_started (c : Config) (cw : CmdWord) (wave : List Bool) (n : Nat) (hn : n ≤ wave.length + 1) :
    (started c cw wave).noReset n := by
  refine noReset_of_listed (by simpa [started, block] using hn) ?_
  simp [started, block, word, quiet]

theorem witness_StartDrivesThenReleases :
    (started tiny 0x00001 (List.replicate 21 true)).Accepts .start ∧
      (started tiny 0x00001 (List.replicate 21 true)).noReset (tiny.tStartLow + tiny.tStartHigh + 1) :=
  ⟨accepts_start _ _ (by decide), noReset_started _ _ _ _ (by decide)⟩

/-- With T_GUARD = T_RESP = 1 the samples of CHECK are at ticks 2 and 3. -/
theorem witness_CheckReportsTwoSamples_first :
    (started tiny 0x00002 [true, true, true]).Accepts .check ∧
      (started tiny 0x00002 [true, true, true]).noReset (tiny.tGuard + tiny.tResp + 2) ∧
      (started tiny 0x00002 [true, true, true]).lineAt (tiny.tGuard + 1) = true :=
  ⟨accepts_check _ _ (by decide), noReset_started _ _ _ _ (by decide), rfl⟩
theorem witness_CheckReportsTwoSamples_second (level : Bool) :
    (started tiny 0x00002 [true, false, level]).Accepts .check ∧
      (started tiny 0x00002 [true, false, level]).noReset (tiny.tGuard + tiny.tResp + 2) ∧
      (started tiny 0x00002 [true, false, level]).lineAt (tiny.tGuard + 1) = false ∧
      (started tiny 0x00002 [true, false, level]).lineAt (tiny.tGuard + tiny.tResp + 1) = level :=
  ⟨accepts_check _ _ (by decide), noReset_started _ _ _ _ (by simp [tiny]), rfl, rfl⟩

/-- The shortest pulses R218 allows with T_SAMPLE = 1. -/
def shortest (bit : Bool) : Pulse :=
  { bit := bit, high := if bit then 2 else 1, low := if bit then 1 else 2 }

/-- Byte 0xA5, and the frame 0x37 0x00 0x1E 0x00 0x55, as bits. -/
def byteA5 : List Bool := [true, false, true, false, false, true, false, true]
def frameF1 : List Bool :=
  [false, false, true, true, false, true, true, true] ++ List.replicate 8 false ++
    [false, false, false, true, true, true, true, false] ++ List.replicate 8 false ++
    [false, true, false, true, false, true, false, true]

/-- The bytes the statements speak of are the bytes meant (R64, R65). -/
theorem test_streamByte :
    streamByte byteA5 0 = 0xA5 ∧ streamByte frameF1 0 = 0x37 ∧ streamByte frameF1 2 = 0x1E ∧
      streamByte frameF1 4 = 0x55 := by decide

/-- One leading low tick, then eight pulses: `lead` = 1. -/
theorem witness_RdbyteReadsEightPulses :
    let ps := byteA5.map shortest
    let s := started tiny 0x00003 (false :: waveOf ps)
    s.Accepts .rdbyte ∧ s.cfg.waitTimeout = 0 ∧ ps.length = 8 ∧ (∀ p, p ∈ ps → p.legal s.cfg.tSample = true) ∧
      s.noReset (1 + 1 + (waveOf ps).length) ∧ (∀ j, 1 ≤ j → j ≤ 1 → s.riseAt j = false) ∧ s.lineAt 1 = false ∧
      s.lineFollows (1 + 1) (waveOf ps) := by
  refine ⟨accepts_rdbyte _ _ (by decide), rfl, rfl, by decide, noReset_started _ _ _ _ (by decide), ?_, rfl,
    lineFollows_of_listed (by decide)⟩
  intro j h1 h2
  have h3 : j = 1 := by omega
  subst h3
  decide

/-- The line up to the second response sample of a SAMPLE with `tiny`: low at tick 23, high at tick 24. -/
def response : List Bool := List.replicate 22 true ++ [false, true]

/-- One low tick after the response, then forty pulses: b = 24, `lead` = 1. -/
theorem witness_SampleCommitsFrameSent :
    let ps := frameF1.map shortest
    let s := started tiny 0x00004 (response ++ false :: waveOf ps)
    s.Accepts .sample ∧ s.cfg.waitTimeout = 0 ∧ ps.length = 40 ∧
      24 = s.cfg.tStartLow + s.cfg.tStartHigh + 1 + s.cfg.tGuard + s.cfg.tResp ∧
      (∀ p, p ∈ ps → p.legal s.cfg.tSample = true) ∧ s.noReset (24 + 1 + 1 + (waveOf ps).length) ∧
      s.lineAt (24 - s.cfg.tResp) = false ∧ s.lineAt 24 = true ∧
      (∀ j, 24 + 1 ≤ j → j ≤ 24 + 1 → s.riseAt j = false) ∧ s.lineAt (24 + 1) = false ∧
      s.lineFollows (24 + 1 + 1) (waveOf ps) := by
  refine ⟨accepts_sample _ _ (by decide), rfl, rfl, rfl, by decide, noReset_started _ _ _ _ (by decide), rfl, rfl, ?_,
    rfl, lineFollows_of_listed (by decide)⟩
  intro j h1 h2
  have h3 : j = 25 := by omega
  subst h3
  decide

theorem witness_SampleWithoutResponseHoldsReading_first :
    let s := started tiny 0x00004 (List.replicate 24 true)
    s.Accepts .sample ∧ 22 = s.cfg.tStartLow + s.cfg.tStartHigh + 1 ∧ s.noReset (22 + s.cfg.tGuard + s.cfg.tResp + 1) ∧
      s.lineAt (22 + s.cfg.tGuard) = true :=
  ⟨accepts_sample _ _ (by decide), rfl, noReset_started _ _ _ _ (by decide), rfl⟩
theorem witness_SampleWithoutResponseHoldsReading_second :
    let s := started tiny 0x00004 (List.replicate 24 false)
    s.Accepts .sample ∧ 22 = s.cfg.tStartLow + s.cfg.tStartHigh + 1 ∧ s.noReset (22 + s.cfg.tGuard + s.cfg.tResp + 1) ∧
      s.lineAt (22 + s.cfg.tGuard) = false ∧ s.lineAt (22 + s.cfg.tGuard + s.cfg.tResp) = false :=
  ⟨accepts_sample _ _ (by decide), rfl, noReset_started _ _ _ _ (by decide), rfl, rfl⟩

theorem witness_RdbyteEndsWithTimeout :
    let s := started (bounded 1) 0x00003 (List.replicate 24 false)
    s.Accepts .rdbyte ∧ 0 < s.cfg.waitTimeout ∧
      s.noReset (8 * (2 * s.cfg.waitTimeout + s.cfg.tSample) + 1) :=
  ⟨accepts_rdbyte _ _ (by decide), by decide, noReset_started _ _ _ _ (by decide)⟩

theorem witness_SampleEndsWithTimeout :
    let s := started (bounded 1) 0x00004 (List.replicate 144 false)
    s.Accepts .sample ∧ 0 < s.cfg.waitTimeout ∧
      144 = s.cfg.tStartLow + s.cfg.tStartHigh + s.cfg.tGuard + 1 + s.cfg.tResp +
        40 * (2 * s.cfg.waitTimeout + s.cfg.tSample) ∧
      s.noReset (144 + 1) :=
  ⟨accepts_sample _ _ (by decide), by decide, rfl, noReset_started _ _ _ _ (by simp)⟩

theorem witness_WaitsHangWithoutTimeout_rise :
    (inPhase tiny .bitRise 0 true).cfg.ok = true ∧ (inPhase tiny .bitRise 0 true).cfg.waitTimeout = 0 ∧
      (inPhase tiny .bitRise 0 true).noReset 2 ∧ (inPhase tiny .bitRise 0 true).regs.phase = .bitRise ∧
      ∀ j, j < 2 → (inPhase tiny .bitRise 0 true).riseAt j = false :=
  ⟨by decide, rfl, noReset_inPhase _ _ _ _ 2 (Nat.le_refl 2), rfl, by decide⟩
theorem witness_WaitsHangWithoutTimeout_fall :
    (inPhase tiny .bitFall 0 true).cfg.ok = true ∧ (inPhase tiny .bitFall 0 true).cfg.waitTimeout = 0 ∧
      (inPhase tiny .bitFall 0 true).noReset 2 ∧ (inPhase tiny .bitFall 0 true).regs.phase = .bitFall ∧
      ∀ j, j < 2 → (inPhase tiny .bitFall 0 true).lineAt j = true :=
  ⟨by decide, rfl, noReset_inPhase _ _ _ _ 2 (Nat.le_refl 2), rfl, by decide⟩

/-- The same inputs and visible registers, every other register at its reset value; two ticks, busy at tick 1. -/
theorem witness_SampleLeavesNoResidue :
    let s := started tiny 0x00004 [true]
    let s' : State := { s with
      regs := { Regs.reset with hum := 40, temp := 20, valid := true, respOk := true, out := 0b00001 } }
    s.Accepts .sample ∧ s'.regs.phase = .idle ∧ s'.cfg = s.cfg ∧ s'.inputs = s.inputs ∧ s'.tick = s.tick ∧
      s'.regs.hum = s.regs.hum ∧ s'.regs.temp = s.regs.temp ∧ s'.regs.valid = s.regs.valid ∧
      s'.regs.respOk = s.regs.respOk ∧ s'.regs.out = s.regs.out ∧ 1 ≤ 2 ∧ s'.regs ≠ s.regs ∧
      (∀ j, 1 ≤ j → j < 2 → ∃ t, runFor j s = .next t ∧ t.regs.phase ≠ .idle) := by
  refine ⟨accepts_sample _ _ (by decide), rfl, rfl, rfl, rfl, rfl, rfl, rfl, rfl, rfl, by decide, by decide, ?_⟩
  intro j h1 h2
  have h3 : j = 1 := by omega
  subst h3
  exact ⟨_, rfl, by decide⟩

/-- The laws of every tick: each of their cases occurs at a tick that answers a next state. -/
theorem witness_ReadingWrittenByCommitOnly :
    (∃ t, step (byteEnd true 4) = .next t) ∧ (byteEnd true 4).input.rst = false ∧ (byteEnd true 4).commitsNow :=
  ⟨⟨_, rfl⟩, rfl, by decide⟩
theorem witness_ReadingWrittenByCommitOnly_kept :
    (∃ t, step (byteEnd true 3) = .next t) ∧ (byteEnd true 3).input.rst = false ∧ ¬ (byteEnd true 3).commitsNow :=
  ⟨⟨_, rfl⟩, rfl, by decide⟩
theorem witness_ValidWriters_set :
    (∃ t, step (byteEnd true 4) = .next t) ∧ (byteEnd true 4).input.rst = false ∧ (byteEnd true 4).commitsNow :=
  ⟨⟨_, rfl⟩, rfl, by decide⟩
theorem witness_ValidWriters_cleared :
    (∃ t, step (inPhase tiny .respGuard 0 true) = .next t) ∧ (inPhase tiny .respGuard 0 true).input.rst = false ∧
      ¬ (inPhase tiny .respGuard 0 true).commitsNow ∧ (inPhase tiny .respGuard 0 true).regs.seq = true ∧
      (inPhase tiny .respGuard 0 true).handshakeFailsNow :=
  ⟨⟨_, rfl⟩, rfl, by decide, rfl, by decide⟩
theorem witness_ValidWriters_cleared_by_timeout :
    (∃ t, step (inPhase (bounded 1) .bitRise 0 true) = .next t) ∧
      (inPhase (bounded 1) .bitRise 0 true).input.rst = false ∧
      (inPhase (bounded 1) .bitRise 0 true).regs.seq = true ∧ (inPhase (bounded 1) .bitRise 0 true).timesOutNow :=
  ⟨⟨_, rfl⟩, rfl, rfl, by decide⟩
theorem witness_RespOkWriters_cleared :
    (∃ t, step (inPhase tiny .respWait 0 false) = .next t) ∧ (inPhase tiny .respWait 0 false).input.rst = false ∧
      (inPhase tiny .respWait 0 false).handshakeFailsNow := ⟨⟨_, rfl⟩, rfl, by decide⟩
theorem witness_RespOkWriters_set :
    (∃ t, step (inPhase tiny .respWait 0 true) = .next t) ∧ (inPhase tiny .respWait 0 true).input.rst = false ∧
      ¬ (inPhase tiny .respWait 0 true).handshakeFailsNow ∧ (inPhase tiny .respWait 0 true).regs.phase = .respWait ∧
      (inPhase tiny .respWait 0 true).regs.tmr = 0 := ⟨⟨_, rfl⟩, rfl, by decide, rfl, rfl⟩
theorem witness_TmoWriters_set :
    (∃ t, step (inPhase (bounded 1) .bitFall 0 true) = .next t) ∧
      (inPhase (bounded 1) .bitFall 0 true).input.rst = false ∧ (inPhase (bounded 1) .bitFall 0 true).timesOutNow :=
  ⟨⟨_, rfl⟩, rfl, by decide⟩
theorem witness_TmoWriters_cleared (cw : CmdWord) (h : cw = 0x00003 ∨ cw = 0x00004) :
    (∃ t, step (started tiny cw []) = .next t) ∧ (started tiny cw []).input.rst = false ∧
      ¬ (started tiny cw []).timesOutNow ∧ (started tiny cw []).regs.phase = .idle ∧
      (started tiny cw []).input.cmdValid = true ∧
      (decodeWord (wordOf (started tiny cw []).input.operand (started tiny cw []).input.cmd) = .rdbyte ∨
        decodeWord (wordOf (started tiny cw []).input.operand (started tiny cw []).input.cmd) = .sample) := by
  rcases h with rfl | rfl <;> exact ⟨⟨_, rfl⟩, rfl, by decide, rfl, rfl, by decide⟩
theorem witness_OutWrittenByActOnly :
    (∃ t, step offered = .next t) ∧ offered.input.rst = false ∧ offered.regs.phase = .idle ∧
      offered.input.cmdValid = true ∧ offered.input.cmd = 5 := ⟨⟨_, rfl⟩, rfl, rfl, rfl, by decide⟩
theorem witness_OutWrittenByActOnly_kept :
    (∃ t, step (started tiny 0x00006 []) = .next t) ∧ (started tiny 0x00006 []).input.rst = false ∧
      (started tiny 0x00006 []).input.cmd ≠ 5 := ⟨⟨_, rfl⟩, rfl, by decide⟩
theorem witness_ShifterAndStagingWriters_shift :
    (∃ t, step (inPhase tiny .bitDelay 0 true) = .next t) ∧ (inPhase tiny .bitDelay 0 true).input.rst = false ∧
      (inPhase tiny .bitDelay 0 true).regs.phase = .bitDelay ∧ (inPhase tiny .bitDelay 0 true).regs.tmr = 0 :=
  ⟨⟨_, rfl⟩, rfl, rfl, rfl⟩
theorem witness_ShifterAndStagingWriters_stage :
    (∃ t, step (byteEnd true 0) = .next t) ∧ (byteEnd true 0).input.rst = false ∧ (byteEnd true 0).endsByteNow 0 ∧
      (∃ t, step (byteEnd true 2) = .next t) ∧ (byteEnd true 2).input.rst = false ∧ (byteEnd true 2).endsByteNow 2 :=
  ⟨⟨_, rfl⟩, rfl, by decide, ⟨_, rfl⟩, rfl, by decide⟩
theorem witness_PrevFollowsLine :
    (∃ t, step (inPhase tiny .startLow 0 false) = .next t) ∧ (inPhase tiny .startLow 0 false).input.rst = false :=
  ⟨⟨_, rfl⟩, rfl⟩
/-- IDLE is left by codes 1 and 4, the ends of the range. -/
theorem witness_PhaseTransitions (cw : CmdWord) (h : cw = 0x00001 ∨ cw = 0x00004) :
    (∃ t, step (started tiny cw []) = .next t ∧ t.regs.phase ≠ .idle) ∧ (started tiny cw []).input.rst = false ∧
      (started tiny cw []).regs.phase = .idle := by
  rcases h with rfl | rfl <;> exact ⟨⟨_, rfl, by decide⟩, rfl, rfl⟩

theorem witness_LineWhileDrivingUnobservable (p : Phase) (h : p = .startLow ∨ p = .startHigh) :
    (inPhase tiny p 0 true).cfg.ok = true ∧
      ((inPhase tiny p 0 true).regs.phase = .startLow ∨ (inPhase tiny p 0 true).regs.phase = .startHigh) ∧
      (inPhase tiny p 0 true).inputs = { quiet false with line := true } :: [quiet true] := ⟨(by decide : tiny.ok = true), h, rfl⟩
theorem witness_PrevReadInRiseWaitOnly :
    (inPhase tiny .bitFall 0 true).cfg.ok = true ∧ (inPhase tiny .bitFall 0 true).regs.phase ≠ .bitRise := by decide
theorem witness_OutputsAfterReset :
    (block tiny used [{ quiet false with rst := true }]).cfg.ok = true ∧
      (block tiny used [{ quiet false with rst := true }]).input.rst = true := by decide

/-- A good state in the middle of SAMPLE's last byte, with bounded waits, and its next tick. -/
theorem witness_InvariantKeptByEveryTick :
    (block (bounded 1) { used with phase := .bitFall, bitcnt := 7, bytecnt := 4 } [quiet false]).Inv ∧
      ∃ t, step (block (bounded 1) { used with phase := .bitFall, bitcnt := 7, bytecnt := 4 } [quiet false]) =
        .next t :=
  ⟨⟨by decide, by decide, by decide, by decide, by decide, by decide, by decide⟩, ⟨_, rfl⟩⟩

end Sys2Proof.Tests
end

section
/-! PROOFS. The family spec/00_scope.md: which configurations have a meaning, that a legal one has a next state at every
tick, and that every tick keeps `State.Inv`. -/

namespace Sys2Proof.Machine

/-! ### Legal configurations -/

/-- Under a legal configuration a tick answers a next state, whatever the registers and the inputs (R12, R180, R186). -/
theorem step_answers {s : State} (hc : s.cfg.ok = true) : ∃ r, step s = .next (s.nextTick r) := by
  cases hr : s.input.rst
  case true => exact ⟨_, step_reset hc hr⟩
  case false =>
    by_cases ha : s.regs.phase = .idle ∧ s.input.cmdValid = true
    · exact ⟨_, (step_accept hc hr ha.1 ha.2).trans (exec_eq _ s)⟩
    · rw [not_and_or, Bool.not_eq_true] at ha
      exact ⟨_, step_phase hc hr ha⟩

/-- Settles O10: each constraint of R11 is a conjunct of `Config.ok`, without which the step refuses. -/
theorem illegalConfigurationIsRefused : Obligations.IllegalConfigurationIsRefused := by
  intro s hbroken
  have hc : s.cfg.ok = false := by
    rw [Bool.eq_false_iff, Ne, config_ok_iff]
    omega
  exact step_refused hc

/-- Settles O11: the ranges of R6, R10 and R11 are `Config.ok`, under which every tick answers a next state. -/
theorem everyTickAnswersNext : Obligations.EveryTickAnswersNext := by
  intro s hranges
  have hc : s.cfg.ok = true := by
    rw [config_ok_iff]
    omega
  obtain ⟨r, hr⟩ := step_answers hc
  exact ⟨_, hr, nextTick_cfg s r, nextTick_inputs s r, nextTick_tick s r⟩

/-! ### The invariant in registers

`State.Inv` is a legal configuration and four conditions on the registers that each tick keeps independently. That TMR
fits its width is no fifth one: no phase loads more than TMR_W bits hold (R11). -/

/-- TMR is at most what the phase loaded (R120). -/
def Regs.timerOk (c : Config) (r : Regs) : Prop := r.tmr ≤ timerBound c r.phase

/-- BYTECNT is at most 5, and inside SAMPLE in step with the phase (R32). -/
def Regs.bytesOk (r : Regs) : Prop :=
  r.bytecnt.toNat ≤ 5 ∧ (r.seq = true → sampleBytesOk r.phase r.bytecnt = true)

/-- No phase loads more than TMR may hold in IDLE, the largest number of TMR_W bits (R11, R33). -/
theorem timerBound_le_idle {c : Config} (hc : c.ok = true) (p : Phase) : timerBound c p ≤ timerBound c .idle := by
  rw [config_ok_iff] at hc
  cases p <;> simp only [timerBound] <;> omega

/-- A timer within its phase's load may stay as it is when the operation ends. -/
theorem Regs.timerOk.le_idle {c : Config} {r : Regs} (hc : c.ok = true) (h : r.timerOk c) :
    r.tmr ≤ timerBound c .idle :=
  h.trans (timerBound_le_idle hc r.phase)

/-- `State.Inv` in terms of the conditions on the registers. -/
theorem inv_iff (s : State) :
    s.Inv ↔ s.cfg.ok = true ∧ s.regs.timerOk s.cfg ∧ s.regs.bytesOk ∧ s.regs.out ∈ outValues ∧
      (s.cfg.waitTimeout = 0 → s.regs.tmo = false) := by
  constructor
  · rintro ⟨hc, -, htimer, hrange, hsample, hout, htmo⟩
    exact ⟨hc, htimer, ⟨hrange, hsample⟩, hout, htmo⟩
  · rintro ⟨hc, htimer, ⟨hrange, hsample⟩, hout, htmo⟩
    have hfits : s.regs.tmr < 2 ^ s.cfg.tmrW := by
      have hidle : s.regs.tmr ≤ 2 ^ s.cfg.tmrW - 1 := htimer.le_idle hc
      have hpos : 0 < 2 ^ s.cfg.tmrW := Nat.two_pow_pos _
      omega
    exact ⟨hc, hfits, htimer, hrange, hsample, hout, htmo⟩

/-- The actuator function takes six of the seven values of R91, the reset value being the seventh (R166). -/
theorem actuate_mem_outValues (c : Config) (t : Byte) (soil : Soil) : actuate c t soil ∈ outValues := by
  unfold actuate
  cases pump c soil <;> cases tier c t <;> decide

/-! ### The phase rules keep each condition -/

section PhaseRules
variable {c : Config} {lin : Bool} {r r' : Regs}

/-- A phase rule keeps TMR, counts it down, or loads it for the phase it enters. -/
theorem PhaseEffect.timerOk (h : PhaseEffect c lin r r') (hc : c.ok = true) (hr : r.timerOk c) : r'.timerOk c := by
  have hidle : r.tmr ≤ timerBound c .idle := hr.le_idle hc
  cases h with
  | rest | waitHangs => exact hr
  | count | waitCounts => exact (Nat.sub_le _ _).trans hr
  | lowEnds | highGoesOn | firstSamplePasses | rises => exact Nat.le_refl _
  | responseGoesOn | samples | slotEnds | nextByte => exact (wload_eq c).le
  | highEnds | firstSampleFails | secondSampleFails | responseEnds | timesOut | byteEnds | commits =>
    exact hidle

/-- A phase rule keeps BYTECNT, but for the end of a byte inside SAMPLE (R129, R130). -/
theorem PhaseEffect.bytesOk (h : PhaseEffect c lin r r') (hr : r.bytesOk) : r'.bytesOk := by
  obtain ⟨hrange, hsample⟩ := hr
  cases h with
  | rest | count | waitCounts | waitHangs => exact ⟨hrange, hsample⟩
  | highEnds | firstSampleFails | secondSampleFails | responseEnds | timesOut | byteEnds =>
    exact ⟨hrange, fun _ => rfl⟩
  | commits => exact ⟨Nat.le_refl 5, fun _ => rfl⟩
  | lowEnds hp | highGoesOn hp | firstSamplePasses hp | rises hp | samples hp | slotEnds hp =>
    rw [hp] at hsample
    exact ⟨hrange, hsample⟩
  | responseGoesOn hp =>
    refine ⟨hrange, fun hq => ?_⟩
    have hzero : r.bytecnt = 0 := by simpa [hp, sampleBytesOk] using hsample hq
    simp [sampleBytesOk, hzero]
  | nextByte hp _ _ hq hy =>
    have hle : r.bytecnt.toNat ≤ 4 := by simpa [hp, sampleBytesOk] using hsample hq
    have hnext : (r.bytecnt + 1).toNat ≤ 4 := by bv_omega
    exact ⟨hnext.trans (by decide), fun _ => decide_eq_true hnext⟩

/-- No phase rule writes OUT (R28). -/
theorem PhaseEffect.out_eq (h : PhaseEffect c lin r r') : r'.out = r.out := by cases h <;> rfl

/-- Only a timeout writes TMO, and there is none with WAIT_TIMEOUT = 0 (R37, R132). -/
theorem PhaseEffect.tmo_eq (h : PhaseEffect c lin r r') (hw : c.waitTimeout = 0) : r'.tmo = r.tmo := by
  cases h with
  | timesOut _ hpos => exact absurd hw (Nat.ne_of_gt hpos)
  | _ => rfl

end PhaseRules

/-! ### The acceptance of a command keeps each condition -/

section Acceptance
variable {c : Config} {r : Regs}

/-- A command leaves the timer alone or loads it for the phase it enters (R115). -/
theorem acceptRegs_timerOk (i : Instr) (hr : r.timerOk c) : (acceptRegs c r i).timerOk c := by
  cases i with
  | nop | rsv6 | rsv7 | act => exact hr
  | start | check | sample => exact Nat.le_refl _
  | rdbyte => exact (wload_eq c).le

/-- SAMPLE clears BYTECNT; the other commands that leave IDLE clear SEQ (R115). -/
theorem acceptRegs_bytesOk (i : Instr) (hr : r.bytesOk) : (acceptRegs c r i).bytesOk := by
  cases i with
  | nop | rsv6 | rsv7 | act => exact hr
  | start | check | rdbyte => exact ⟨hr.1, Bool.noConfusion⟩
  | sample => exact ⟨Nat.zero_le 5, fun _ => rfl⟩

/-- ACT alone writes OUT, and writes a value of the actuator function (R163). -/
theorem acceptRegs_out_mem (i : Instr) (hr : r.out ∈ outValues) : (acceptRegs c r i).out ∈ outValues := by
  cases i with
  | act soil => exact actuate_mem_outValues c r.temp soil
  | _ => exact hr

/-- No command sets TMO (R37). -/
theorem acceptRegs_tmo (i : Instr) (hr : r.tmo = false) : (acceptRegs c r i).tmo = false := by
  cases i with
  | rdbyte | sample => rfl
  | _ => exact hr

end Acceptance

/-! ### Every tick keeps the invariant -/

/-- The registers after a reset tick meet the invariant under every legal configuration (R43). -/
theorem inv_nextTick_reset {s : State} (hc : s.cfg.ok = true) : (s.nextTick Regs.reset).Inv :=
  have hout : Regs.reset.out ∈ outValues := by decide
  (inv_iff _).2 ⟨hc, Nat.zero_le _, ⟨Nat.zero_le 5, fun _ => rfl⟩, hout, fun _ => rfl⟩

/-- Settles O53: the three kinds of tick of R186, each of which keeps the four conditions on the registers. -/
theorem invariantKeptByEveryTick : Obligations.InvariantKeptByEveryTick := by
  intro s t hinv hstep
  obtain ⟨-, htimer, hbytes, hout, htmo⟩ := (inv_iff s).1 hinv
  obtain ⟨hc, r, rfl, ⟨-, rfl⟩ | ⟨-, -, -, rfl⟩ | ⟨-, -, r', heff, rfl⟩⟩ := tick_cases hstep
  · exact inv_nextTick_reset hc
  · exact (inv_iff _).2 ⟨hc, acceptRegs_timerOk _ htimer, acceptRegs_bytesOk _ hbytes, acceptRegs_out_mem _ hout,
      fun hw => acceptRegs_tmo _ (htmo hw)⟩
  · exact (inv_iff _).2 ⟨hc, heff.timerOk hc htimer, heff.bytesOk hbytes, heff.out_eq ▸ hout,
      fun hw => (heff.tmo_eq hw).trans (htmo hw)⟩

end Sys2Proof.Machine
end

section
/-! PROOFS. The family spec/10_state.md: which ticks write which register, where PHASE may go, what of the line and of
PREV is observed, the output ports, the reset state, and how long a SAMPLE takes with bounded waits. -/

namespace Sys2Proof.Machine

/-! ### The cases of a phase rule exclude each other

`phaseTick_effect` finds a case of `PhaseEffect` for every phase rule. Each case also fixes the registers the rule
leaves, so a condition that selects a case decides the tick. -/

section PhaseRules
variable {c : Config} {lin : Bool} {r r₁ r₂ : Regs}

/-- The rule of a phase of fixed length is a tick of the timer with some end action (R120). -/
theorem phaseTick_timed (hp : r.phase.timed = true) : ∃ e, r.phaseTick c lin = r.timed e := by
  cases hph : r.phase <;> simp only [Regs.phaseTick, hph]
  case startLow | startHigh | respGuard | respWait | bitDelay => exact ⟨_, rfl⟩
  case idle | bitRise | bitFall => simp [hph, Phase.timed] at hp

/-- A wait whose level has not come is `Regs.await` without its level, whatever it waits for (R125, R128). -/
theorem phaseTick_stillWaits (hs : r.stillWaits c lin) : r.phaseTick c lin = r.await c false r := by
  obtain ⟨hp, hl⟩ | ⟨hp, rfl⟩ := hs
  · simp [Regs.phaseTick, hp, Regs.bitRiseTick, hl, Regs.await]
  · simp [Regs.phaseTick, hp, Regs.bitFallTick, Regs.await]

/-- A wait for low whose level has come ends the bit slot (R128). -/
theorem phaseTick_low (hp : r.phase = .bitFall) (hl : lin = false) : r.phaseTick c lin = r.endOfSlot c := by
  simp [Regs.phaseTick, hp, Regs.bitFallTick, hl, Regs.await]

/-- Each case of `PhaseEffect` gives the registers that the phase rule computes. -/
theorem PhaseEffect.eq_phaseTick (h : PhaseEffect c lin r r₁) : r₁ = r.phaseTick c lin := by
  cases h with
  | rest hp => simp [Regs.phaseTick, hp]
  | count hp ht =>
    obtain ⟨e, he⟩ := phaseTick_timed (c := c) (lin := lin) hp
    rw [he, timed_pos e ht]
  | lowEnds hp ht => simp [Regs.phaseTick, hp, Regs.startLowTick, timed_zero _ ht, Regs.enter]
  | highGoesOn hp ht hq => simp [Regs.phaseTick, hp, Regs.startHighTick, timed_zero _ ht, hq, Regs.enter]
  | highEnds hp ht hq => simp [Regs.phaseTick, hp, Regs.startHighTick, timed_zero _ ht, hq, Regs.finish]
  | firstSampleFails hp ht hl =>
    simp [Regs.phaseTick, hp, Regs.respGuardTick, timed_zero _ ht, hl, raise_handshakeFail]
  | firstSamplePasses hp ht hl => simp [Regs.phaseTick, hp, Regs.respGuardTick, timed_zero _ ht, hl, Regs.enter]
  | secondSampleFails hp ht hl =>
    simp [Regs.phaseTick, hp, Regs.respWaitTick, timed_zero _ ht, hl, raise_handshakeFail]
  | responseGoesOn hp ht hl hq =>
    simp [Regs.phaseTick, hp, Regs.respWaitTick, timed_zero _ ht, hl, hq, Regs.enter]
  | responseEnds hp ht hl hq =>
    simp [Regs.phaseTick, hp, Regs.respWaitTick, timed_zero _ ht, hl, hq, Regs.finish]
  | rises hp hr => simp [Regs.phaseTick, hp, Regs.bitRiseTick, hr, Regs.await, Regs.enter]
  | timesOut hs hw ht => simp [phaseTick_stillWaits hs, Regs.await, hw, ht, raise_waitTimeout]
  | waitCounts hs hw ht => simp [phaseTick_stillWaits hs, Regs.await, hw, ht]
  | waitHangs hs hw => simp [phaseTick_stillWaits hs, Regs.await, hw]
  | samples hp ht => simp [Regs.phaseTick, hp, Regs.bitDelayTick, timed_zero _ ht, Regs.enter]
  | slotEnds hp hl hb => rw [phaseTick_low hp hl, endOfSlot_inner c hb]
  | byteEnds hp hl hb hq =>
    simp [phaseTick_low hp hl, endOfSlot_last c hb, Regs.endOfByte, hq, Regs.finish]
  | commits hp hl hb hq hy =>
    simp [phaseTick_low hp hl, endOfSlot_last c hb, Regs.endOfByte, hq, hy, Regs.commit]
  | nextByte hp hl hb hq hy =>
    simp only [phaseTick_low hp hl, endOfSlot_last c hb, Regs.endOfByte, hq, if_true, if_neg hy, Regs.enter]

/-- A phase rule leaves one set of registers. -/
theorem PhaseEffect.unique (h₁ : PhaseEffect c lin r r₁) (h₂ : PhaseEffect c lin r r₂) : r₁ = r₂ :=
  h₁.eq_phaseTick.trans h₂.eq_phaseTick.symm

/-- In IDLE the phase rule writes nothing (R133). -/
theorem PhaseEffect.eq_of_idle (h : PhaseEffect c lin r r₁) (hp : r.phase = .idle) : r₁ = r :=
  h.unique (.rest hp)

end PhaseRules

/-! ### The events that write the flags and the reading -/

section Events
variable {s : State} {r' : Regs}

/-- The commit (R130). -/
theorem commitsNow_effect (h : s.commitsNow) :
    PhaseEffect s.cfg (s.lineAt 0) s.regs
      { s.regs with
        bitcnt := 0, hum := s.regs.hStg, temp := s.regs.tStg, valid := true, bytecnt := 5, phase := .idle } := by
  obtain ⟨hp, hl, hb, hq, hy⟩ := h
  exact .commits hp hl hb hq hy

/-- Both handshake failures write the same (R131). -/
theorem handshakeFailsNow_effect (h : s.handshakeFailsNow) :
    PhaseEffect s.cfg (s.lineAt 0) s.regs
      { s.regs with respOk := false, valid := if s.regs.seq then false else s.regs.valid, phase := .idle } := by
  obtain ⟨ht, ⟨hp, hl⟩ | ⟨hp, hl⟩⟩ := h
  · exact .firstSampleFails hp ht hl
  · exact .secondSampleFails hp ht hl

/-- `State.timesOutNow` in terms of the waits of `PhaseEffect`. -/
theorem timesOutNow_iff (s : State) :
    s.timesOutNow ↔ 0 < s.cfg.waitTimeout ∧ s.regs.tmr = 0 ∧ s.regs.stillWaits s.cfg (s.lineAt 0) := Iff.rfl

/-- A timeout in either wait writes the same (R132). -/
theorem timesOutNow_effect (h : s.timesOutNow) :
    PhaseEffect s.cfg (s.lineAt 0) s.regs
      { s.regs with tmo := true, valid := if s.regs.seq then false else s.regs.valid, phase := .idle } := by
  obtain ⟨hw, ht, hs⟩ := (timesOutNow_iff s).1 h
  exact .timesOut hs hw ht

/-- The staged bytes become the reading at the commit only (R26, R27, R130). -/
theorem PhaseEffect.reading_eq (h : PhaseEffect s.cfg (s.lineAt 0) s.regs r') :
    r'.hum = (if s.commitsNow then s.regs.hStg else s.regs.hum) ∧
    r'.temp = (if s.commitsNow then s.regs.tStg else s.regs.temp) := by
  by_cases hn : s.commitsNow
  · rw [if_pos hn, if_pos hn, h.unique (commitsNow_effect hn)]
    exact ⟨rfl, rfl⟩
  · rw [if_neg hn, if_neg hn]
    cases h with
    | commits hp hl hb hq hy => exact absurd ⟨hp, hl, hb, hq, hy⟩ hn
    | _ => exact ⟨rfl, rfl⟩

/-- VALID is set by the commit and cleared by an abort inside SAMPLE (R35). -/
theorem PhaseEffect.valid_eq (h : PhaseEffect s.cfg (s.lineAt 0) s.regs r') :
    r'.valid =
      if s.commitsNow then true
      else if s.regs.seq = true ∧ (s.handshakeFailsNow ∨ s.timesOutNow) then false
      else s.regs.valid := by
  by_cases hn : s.commitsNow
  · rw [if_pos hn, h.unique (commitsNow_effect hn)]
  rw [if_neg hn]
  by_cases ha : s.handshakeFailsNow ∨ s.timesOutNow
  · have hv : r'.valid = if s.regs.seq then false else s.regs.valid := by
      rcases ha with hf | ho
      · rw [h.unique (handshakeFailsNow_effect hf)]
      · rw [h.unique (timesOutNow_effect ho)]
    rw [hv]
    exact if_congr (and_iff_left ha).symm rfl rfl
  · rw [if_neg fun hx => ha hx.2]
    cases h with
    | commits hp hl hb hq hy => exact absurd ⟨hp, hl, hb, hq, hy⟩ hn
    | firstSampleFails hp ht hl => exact absurd (.inl ⟨ht, .inl ⟨hp, hl⟩⟩) ha
    | secondSampleFails hp ht hl => exact absurd (.inl ⟨ht, .inr ⟨hp, hl⟩⟩) ha
    | timesOut hs hw ht => exact absurd (.inr ⟨hw, ht, hs⟩) ha
    | _ => rfl

/-- RESP_OK is the outcome of the response check (R36). -/
theorem PhaseEffect.respOk_eq (h : PhaseEffect s.cfg (s.lineAt 0) s.regs r') :
    r'.respOk =
      if s.handshakeFailsNow then false
      else if s.regs.phase = .respWait ∧ s.regs.tmr = 0 then true
      else s.regs.respOk := by
  by_cases hf : s.handshakeFailsNow
  · rw [if_pos hf, h.unique (handshakeFailsNow_effect hf)]
  rw [if_neg hf]
  by_cases hw : s.regs.phase = .respWait ∧ s.regs.tmr = 0
  · obtain ⟨hp, ht⟩ := hw
    have hl : s.lineAt 0 = true := by
      by_contra hlow
      exact hf ⟨ht, .inr ⟨hp, by simpa using hlow⟩⟩
    rw [if_pos ⟨hp, ht⟩]
    cases hq : s.regs.seq
    · rw [h.unique (.responseEnds hp ht hl hq)]
    · rw [h.unique (.responseGoesOn hp ht hl hq)]
  · rw [if_neg hw]
    cases h with
    | firstSampleFails hp ht hl => exact absurd ⟨ht, .inl ⟨hp, hl⟩⟩ hf
    | secondSampleFails hp ht hl => exact absurd ⟨ht, .inr ⟨hp, hl⟩⟩ hf
    | responseGoesOn hp ht => exact absurd ⟨hp, ht⟩ hw
    | responseEnds hp ht => exact absurd ⟨hp, ht⟩ hw
    | _ => rfl

/-- A phase rule sets TMO at a wait timeout and never clears it (R37). -/
theorem PhaseEffect.tmo_eq_ite (h : PhaseEffect s.cfg (s.lineAt 0) s.regs r') :
    r'.tmo = if s.timesOutNow then true else s.regs.tmo := by
  by_cases ho : s.timesOutNow
  · rw [if_pos ho, h.unique (timesOutNow_effect ho)]
  · rw [if_neg ho]
    cases h with
    | timesOut hs hw ht => exact absurd ⟨hw, ht, hs⟩ ho
    | _ => rfl

/-- SHREG takes the line level at the end tick of BIT_DELAY (R23, R127). -/
theorem PhaseEffect.shreg_eq (h : PhaseEffect s.cfg (s.lineAt 0) s.regs r') :
    r'.shreg =
      if s.regs.phase = .bitDelay ∧ s.regs.tmr = 0 then shiftIn s.regs.shreg (s.lineAt 0) else s.regs.shreg := by
  by_cases hn : s.regs.phase = .bitDelay ∧ s.regs.tmr = 0
  · rw [if_pos hn, h.unique (.samples hn.1 hn.2)]
  · rw [if_neg hn]
    cases h with
    | samples hp ht => exact absurd ⟨hp, ht⟩ hn
    | _ => rfl

/-- A byte of SAMPLE other than the last leads to the next one; the first and the third are staged (R129). -/
theorem endsByteNow_effect {k : BitVec 3} (h : s.endsByteNow k) (hk : k ≠ 4) :
    PhaseEffect s.cfg (s.lineAt 0) s.regs
      { s.regs with
        bitcnt := 0
        hStg := if s.regs.bytecnt = 0 then s.regs.shreg else s.regs.hStg
        tStg := if s.regs.bytecnt = 2 then s.regs.shreg else s.regs.tStg
        bytecnt := s.regs.bytecnt + 1
        phase := .bitRise
        tmr := wload s.cfg } := by
  obtain ⟨hp, hl, hb, hq, hy⟩ := h
  exact .nextByte hp hl hb hq (hy ▸ hk)

/-- H_STG takes byte 0 of a SAMPLE, T_STG byte 2 (R24, R25). -/
theorem PhaseEffect.staging_eq (h : PhaseEffect s.cfg (s.lineAt 0) s.regs r') :
    r'.hStg = (if s.endsByteNow 0 then s.regs.shreg else s.regs.hStg) ∧
    r'.tStg = (if s.endsByteNow 2 then s.regs.shreg else s.regs.tStg) := by
  by_cases hn : ∃ k, k ≠ 4 ∧ s.endsByteNow k
  · obtain ⟨k, hk, hp, hl, hb, hq, rfl⟩ := hn
    rw [h.unique (endsByteNow_effect ⟨hp, hl, hb, hq, rfl⟩ hk)]
    simp [State.endsByteNow, hp, hl, hb, hq]
  · rw [if_neg fun he => hn ⟨0, by decide, he⟩, if_neg fun he => hn ⟨2, by decide, he⟩]
    cases h with
    | nextByte hp hl hb hq hy => exact absurd ⟨_, hy, hp, hl, hb, hq, rfl⟩ hn
    | _ => exact ⟨rfl, rfl⟩

end Events
/-! ### What the acceptance of a command writes -/

section Acceptance
variable (c : Config) (r : Regs) (i : Instr)

@[simp] theorem acceptRegs_shreg : (acceptRegs c r i).shreg = r.shreg := by cases i <;> rfl
@[simp] theorem acceptRegs_hStg : (acceptRegs c r i).hStg = r.hStg := by cases i <;> rfl
@[simp] theorem acceptRegs_tStg : (acceptRegs c r i).tStg = r.tStg := by cases i <;> rfl
@[simp] theorem acceptRegs_hum : (acceptRegs c r i).hum = r.hum := by cases i <;> rfl
@[simp] theorem acceptRegs_temp : (acceptRegs c r i).temp = r.temp := by cases i <;> rfl
@[simp] theorem acceptRegs_valid : (acceptRegs c r i).valid = r.valid := by cases i <;> rfl
@[simp] theorem acceptRegs_respOk : (acceptRegs c r i).respOk = r.respOk := by cases i <;> rfl

/-- RDBYTE and SAMPLE clear TMO (R37, R115). -/
theorem acceptRegs_tmo_eq :
    (acceptRegs c r i).tmo = if i = .rdbyte ∨ i = .sample then false else r.tmo := by
  cases i <;> rfl

/-- The command that code and operand spell has that code (R82). -/
theorem code_decodeFields (code : CmdCode) (operand : Soil) : (decodeFields code operand).code = code := by
  obtain ⟨n, hn⟩ := code
  match n, hn with
  | 0, _ | 1, _ | 2, _ | 3, _ | 4, _ | 5, _ | 6, _ | 7, _ => rfl

/-- Code 5 is ACT with the operand on the port (R81, R82). -/
theorem decodeFields_five (operand : Soil) : decodeFields 5 operand = .act operand := rfl

/-- The presented command has the code on the port `cmd` (R80, R110). -/
theorem code_presentedCommand (inp : Inputs) : (presentedCommand inp).code = inp.cmd :=
  (congrArg Instr.code (decodeWord_wordOf inp.operand inp.cmd)).trans (code_decodeFields _ _)

/-- ACT, and no other command, writes OUT (R28, R163). -/
theorem acceptRegs_out (h : i.code ≠ 5) : (acceptRegs c r i).out = r.out := by
  cases i with
  | act => exact absurd rfl h
  | _ => rfl

/-- The moves of PHASE that acceptance makes (R115). -/
def acceptMoves : List (Phase × Phase) := [(.idle, .startLow), (.idle, .respGuard), (.idle, .bitRise)]

/-- Codes 1 to 4 leave IDLE, the others stay (R115). -/
theorem acceptRegs_phase_moves (hp : r.phase = .idle) :
    (acceptRegs c r i).phase = .idle ∨
      ((r.phase, (acceptRegs c r i).phase) ∈ acceptMoves ∧ 1 ≤ i.code.toNat ∧ i.code.toNat ≤ 4) := by
  cases i with
  | nop | act | rsv6 | rsv7 => exact .inl hp
  | start | check | rdbyte | sample => exact .inr (by simp [acceptRegs, acceptMoves, Instr.code, hp])

end Acceptance

/-- A tick without reset accepts a command or runs a phase rule, and then writes PREV (R39, R186). -/
theorem running_cases {s t : State} (h : step s = .next t) (hr : s.input.rst = false) :
    ∃ r, t = s.nextTick { r with prev := s.lineAt 0 } ∧
      ((s.regs.phase = .idle ∧ s.input.cmdValid = true ∧ r = acceptRegs s.cfg s.regs (presentedCommand s.input)) ∨
       (¬ (s.regs.phase = .idle ∧ s.input.cmdValid = true) ∧ PhaseEffect s.cfg (s.lineAt 0) s.regs r)) := by
  obtain ⟨-, r, rfl, ⟨hr', -⟩ | ⟨-, hp, hv, rfl⟩ | ⟨-, hn, r', heff, rfl⟩⟩ := tick_cases h
  · simp [hr] at hr'
  · exact ⟨_, rfl, .inl ⟨hp, hv, rfl⟩⟩
  · refine ⟨r', rfl, .inr ⟨?_, heff⟩⟩
    rintro ⟨hp, hv⟩
    simp [hp, hv] at hn

/-! ### Who writes what

At an acceptance the block is idle, so the law of the phase rules holds there of the registers as they stand
(`PhaseEffect.rest`), and the command keeps the register or is a writer itself. -/

/-- Settles O46: `State.nextTick` of registers whose PREV is the line level, on either kind of tick. -/
theorem prevFollowsLine : Obligations.PrevFollowsLine := by
  intro s t hstep hr
  obtain ⟨r, rfl, -⟩ := running_cases hstep hr
  rfl

/-- Settles O40: the phase rules write the reading at the commit (`PhaseEffect.reading_eq`), no command does. -/
theorem readingWrittenByCommitOnly : Obligations.ReadingWrittenByCommitOnly := by
  intro s t hstep hr
  obtain ⟨r, rfl, ⟨hp, -, rfl⟩ | ⟨-, heff⟩⟩ := running_cases hstep hr
  · simpa only [nextTick_regs, acceptRegs_hum, acceptRegs_temp] using (PhaseEffect.rest hp).reading_eq
  · exact heff.reading_eq

/-- Settles O41: by `PhaseEffect.valid_eq`; no command writes VALID. -/
theorem validWriters : Obligations.ValidWriters := by
  intro s t hstep hr
  obtain ⟨r, rfl, ⟨hp, -, rfl⟩ | ⟨-, heff⟩⟩ := running_cases hstep hr
  · simpa only [nextTick_regs, acceptRegs_valid] using (PhaseEffect.rest hp).valid_eq
  · exact heff.valid_eq

/-- Settles O42: by `PhaseEffect.respOk_eq`; no command writes RESP_OK. -/
theorem respOkWriters : Obligations.RespOkWriters := by
  intro s t hstep hr
  obtain ⟨r, rfl, ⟨hp, -, rfl⟩ | ⟨-, heff⟩⟩ := running_cases hstep hr
  · simpa only [nextTick_regs, acceptRegs_respOk] using (PhaseEffect.rest hp).respOk_eq
  · exact heff.respOk_eq

/-- Settles O43: a wait timeout is a tick of a busy block, so the two writers of TMO never meet. -/
theorem tmoWriters : Obligations.TmoWriters := by
  intro s t hstep hr
  obtain ⟨r, rfl, ⟨hp, hv, rfl⟩ | ⟨hn, heff⟩⟩ := running_cases hstep hr
  · have hnot : ¬ s.timesOutNow := by simp [State.timesOutNow, hp]
    rw [if_neg hnot]
    simp only [hp, hv, true_and]
    exact acceptRegs_tmo_eq s.cfg s.regs (presentedCommand s.input)
  · rw [if_neg (c := s.regs.phase = .idle ∧ _) fun ha => hn ⟨ha.1, ha.2.1⟩]
    exact heff.tmo_eq_ite

/-- Settles O44: code 5 spells ACT with the operand on the port; nothing else writes OUT. -/
theorem outWrittenByActOnly : Obligations.OutWrittenByActOnly := by
  intro s t hstep hr
  obtain ⟨r, rfl, ⟨hp, hv, rfl⟩ | ⟨hn, heff⟩⟩ := running_cases hstep hr
  · by_cases h5 : s.input.cmd = 5
    · have hact : presentedCommand s.input = .act s.input.operand := by
        rw [← decodeFields_five, ← h5]
        exact decodeWord_wordOf _ _
      rw [if_pos ⟨hp, hv, h5⟩, hact]
      rfl
    · rw [if_neg fun ha => h5 ha.2.2]
      exact acceptRegs_out _ _ _ (by rwa [code_presentedCommand])
  · rw [if_neg fun ha => hn ⟨ha.1, ha.2.1⟩]
    exact heff.out_eq

/-- Settles O45: by `PhaseEffect.shreg_eq` and `PhaseEffect.staging_eq`; no command writes these registers. -/
theorem shifterAndStagingWriters : Obligations.ShifterAndStagingWriters := by
  intro s t hstep hr
  have hlaw : t.regs.shreg = (if s.regs.phase = .bitDelay ∧ s.regs.tmr = 0 then shiftIn s.regs.shreg (s.lineAt 0)
      else s.regs.shreg) ∧
      t.regs.hStg = (if s.endsByteNow 0 then s.regs.shreg else s.regs.hStg) ∧
      t.regs.tStg = (if s.endsByteNow 2 then s.regs.shreg else s.regs.tStg) := by
    obtain ⟨r, rfl, ⟨hp, -, rfl⟩ | ⟨-, heff⟩⟩ := running_cases hstep hr
    · simpa only [nextTick_regs, acceptRegs_shreg, acceptRegs_hStg, acceptRegs_tStg] using
        And.intro (PhaseEffect.rest hp).shreg_eq (PhaseEffect.rest hp).staging_eq
    · exact ⟨heff.shreg_eq, heff.staging_eq⟩
  obtain ⟨hshreg, hstaged⟩ := hlaw
  refine ⟨?_, hstaged⟩
  rw [hshreg, apply_ite BitVec.toNat, shiftIn_toNat]

/-! ### Where PHASE may go -/

/-- The moves of the phase rules (section 1 of spec/41_sensorlink.md). -/
def busyMoves : List (Phase × Phase) :=
  [(.startLow, .startHigh), (.startHigh, .respGuard), (.startHigh, .idle), (.respGuard, .respWait), (.respGuard, .idle),
   (.respWait, .bitRise), (.respWait, .idle), (.bitRise, .bitDelay), (.bitRise, .idle), (.bitDelay, .bitFall),
   (.bitFall, .bitRise), (.bitFall, .idle)]

/-- A phase rule stays in its phase or makes a listed move. -/
theorem PhaseEffect.phase_moves {c : Config} {lin : Bool} {r r' : Regs} (h : PhaseEffect c lin r r') :
    r'.phase = r.phase ∨ (r.phase, r'.phase) ∈ busyMoves := by
  cases h with
  | rest | count | waitCounts | waitHangs => exact .inl rfl
  | timesOut hs =>
    obtain ⟨hp, -⟩ | ⟨hp, -⟩ := hs <;> exact .inr (by simp [busyMoves, hp])
  | lowEnds hp | highGoesOn hp | highEnds hp | firstSampleFails hp | firstSamplePasses hp | secondSampleFails hp
  | responseGoesOn hp | responseEnds hp | rises hp | samples hp | slotEnds hp | byteEnds hp | commits hp
  | nextByte hp => exact .inr (by simp [busyMoves, hp])

/-- Settles O47: three moves by acceptance, twelve by the phase rules, none of which leaves IDLE. -/
theorem phaseTransitions : Obligations.PhaseTransitions := by
  intro s t hstep hr
  obtain ⟨r, rfl, ⟨hp, hv, rfl⟩ | ⟨-, heff⟩⟩ := running_cases hstep hr
  · have hmove := acceptRegs_phase_moves s.cfg s.regs (presentedCommand s.input) hp
    rw [code_presentedCommand] at hmove
    obtain hstay | ⟨hmem, hcode⟩ := hmove
    · exact ⟨.inl (hstay.trans hp.symm), fun _ hleft => absurd hstay hleft⟩
    · exact ⟨.inr (List.mem_append_left busyMoves hmem), fun _ _ => ⟨hv, hcode⟩⟩
  · refine ⟨heff.phase_moves.imp_right (List.mem_append_right acceptMoves), fun hp hleft => ?_⟩
    exact absurd ((congrArg Regs.phase (heff.eq_of_idle hp)).trans hp) hleft

/-! ### What of PREV and of the line is observed -/

/-- The registers with another PREV. -/
def Regs.setPrev (r : Regs) (b : Bool) : Regs := { r with prev := b }

/-- The state with another PREV. -/
def State.setPrev (s : State) (b : Bool) : State := { s with regs := s.regs.setPrev b }

section Prev
variable {c : Config} {lin : Bool} {r r' : Regs}

/-- Outside BIT_RISE a wait does not read PREV (R128). -/
theorem Regs.stillWaits.setPrev (h : r.stillWaits c lin) (hp : r.phase ≠ .bitRise) (b : Bool) :
    (r.setPrev b).stillWaits c lin :=
  .inr (h.resolve_left fun hrise => hp hrise.1)

/-- Outside BIT_RISE a phase rule does the same whatever PREV is, and leaves PREV as it was (R63). -/
theorem PhaseEffect.setPrev (h : PhaseEffect c lin r r') (hp : r.phase ≠ .bitRise) (b : Bool) :
    PhaseEffect c lin (r.setPrev b) (r'.setPrev b) := by
  cases h with
  | rises hp' => exact absurd hp' hp
  | timesOut hs hw ht => exact .timesOut (hs.setPrev hp b) hw ht
  | waitCounts hs hw ht => exact .waitCounts (hs.setPrev hp b) hw ht
  | waitHangs hs hw => exact .waitHangs (hs.setPrev hp b) hw
  | rest hp => exact .rest hp
  | count hp ht => exact .count hp ht
  | lowEnds hp ht => exact .lowEnds hp ht
  | highGoesOn hp ht hq => exact .highGoesOn hp ht hq
  | highEnds hp ht hq => exact .highEnds hp ht hq
  | firstSampleFails hp ht hl => exact .firstSampleFails hp ht hl
  | firstSamplePasses hp ht hl => exact .firstSamplePasses hp ht hl
  | secondSampleFails hp ht hl => exact .secondSampleFails hp ht hl
  | responseGoesOn hp ht hl hq => exact .responseGoesOn hp ht hl hq
  | responseEnds hp ht hl hq => exact .responseEnds hp ht hl hq
  | samples hp ht => exact .samples hp ht
  | slotEnds hp hl hb => exact .slotEnds hp hl hb
  | byteEnds hp hl hb hq => exact .byteEnds hp hl hb hq
  | commits hp hl hb hq hy => exact .commits hp hl hb hq hy
  | nextByte hp hl hb hq hy => exact .nextByte hp hl hb hq hy

theorem phaseTick_setPrev (hp : r.phase ≠ .bitRise) (b : Bool) :
    (r.setPrev b).phaseTick c lin = (r.phaseTick c lin).setPrev b :=
  ((phaseTick_effect c lin r).setPrev hp b).eq_phaseTick.symm

/-- No command reads PREV (R115). -/
theorem acceptRegs_setPrev (i : Instr) (b : Bool) :
    acceptRegs c (r.setPrev b) i = (acceptRegs c r i).setPrev b := by
  cases i <;> rfl

end Prev

/-- What ends a tick overwrites PREV (R39). -/
theorem advance_setPrev (s : State) (r : Regs) (b b' : Bool) : (s.setPrev b).advance (r.setPrev b') = s.advance r := rfl

/-- Outside BIT_RISE a tick does the same whatever PREV is: every tick writes it without reading it (R39, R63). -/
theorem step_setPrev {s : State} (hc : s.cfg.ok = true) (hp : s.regs.phase ≠ .bitRise) (b : Bool) :
    step (s.setPrev b) = step s := by
  cases hr : s.input.rst
  case true => exact (step_reset (s := s.setPrev b) hc hr).trans (step_reset hc hr).symm
  case false =>
    by_cases ha : s.regs.phase = .idle ∧ s.input.cmdValid = true
    · have hregs : acceptRegs s.cfg (s.setPrev b).regs (presentedCommand s.input) =
          (acceptRegs s.cfg s.regs (presentedCommand s.input)).setPrev b := acceptRegs_setPrev _ b
      calc step (s.setPrev b)
        _ = exec (presentedCommand s.input) (s.setPrev b) := step_accept (s := s.setPrev b) hc hr ha.1 ha.2
        _ = .next ((s.setPrev b).advance (acceptRegs s.cfg (s.setPrev b).regs (presentedCommand s.input))) :=
          exec_eq _ _
        _ = .next (s.advance (acceptRegs s.cfg s.regs (presentedCommand s.input))) := by rw [hregs, advance_setPrev]
        _ = step s := by rw [step_accept hc hr ha.1 ha.2, exec_eq]
    · rw [not_and_or, Bool.not_eq_true] at ha
      have hregs : (s.setPrev b).regs.phaseTick s.cfg s.lin = (s.regs.phaseTick s.cfg s.lin).setPrev b :=
        phaseTick_setPrev hp b
      calc step (s.setPrev b)
        _ = .next ((s.setPrev b).advance ((s.setPrev b).regs.phaseTick s.cfg s.lin)) :=
          step_phase (s := s.setPrev b) hc hr ha
        _ = .next (s.advance (s.regs.phaseTick s.cfg s.lin)) := by rw [hregs, advance_setPrev]
        _ = step s := (step_phase hc hr ha).symm

/-- Settles O49: `step_setPrev`, and a legal configuration answers. -/
theorem prevReadInRiseWaitOnly : Obligations.PrevReadInRiseWaitOnly := by
  intro s b hc hp
  obtain ⟨r, hr⟩ := step_answers hc
  exact ⟨step_setPrev hc hp b, _, hr⟩

/-- In START_LOW and START_HIGH the phase rule does not read the line (R62). -/
theorem phaseTick_driving {r : Regs} (hp : r.phase = .startLow ∨ r.phase = .startHigh) (c : Config) (l l' : Bool) :
    r.phaseTick c l = r.phaseTick c l' := by
  rcases hp with hp | hp <;> simp only [Regs.phaseTick, hp]

/-- No phase rule leads from START_LOW or START_HIGH to BIT_RISE at once. -/
theorem PhaseEffect.not_bitRise {c : Config} {lin : Bool} {r r' : Regs} (h : PhaseEffect c lin r r')
    (hp : r.phase = .startLow ∨ r.phase = .startHigh) : r'.phase ≠ .bitRise := by
  intro hrise
  have hmove := h.phase_moves
  rcases hp with hp | hp <;> simp [hp, hrise, busyMoves] at hmove

/-- At a tick at which the block drives the line, the level goes into PREV at most, and BIT_RISE is not next (R63). -/
theorem step_driving {s : State} (a : Inputs) (rest : List Inputs) (hc : s.cfg.ok = true)
    (hp : s.regs.phase = .startLow ∨ s.regs.phase = .startHigh) :
    ∃ u : State, u.cfg.ok = true ∧ u.regs.phase ≠ .bitRise ∧
      ∀ level, ∃ b, step { s with inputs := { a with line := level } :: rest } = .next (u.setPrev b) := by
  have hbusy : s.regs.phase ≠ .idle := by rcases hp with hp | hp <;> simp [hp]
  by_cases hr : a.rst = true
  · exact ⟨{ s.nextTick Regs.reset with inputs := rest }, hc, Phase.noConfusion,
      fun level => ⟨true, step_reset (s := { s with inputs := { a with line := level } :: rest }) hc hr⟩⟩
  · rw [Bool.not_eq_true] at hr
    refine ⟨{ s.nextTick (s.regs.phaseTick s.cfg true) with inputs := rest }, hc,
      (phaseTick_effect _ _ _).not_bitRise hp, fun level => ⟨level, ?_⟩⟩
    rw [phaseTick_driving hp s.cfg true level]
    exact step_busy (s := { s with inputs := { a with line := level } :: rest }) hc hr hbusy

/-- Settles O48: the level reaches PREV alone, which the next tick does not read (`step_setPrev`). -/
theorem lineWhileDrivingUnobservable : Obligations.LineWhileDrivingUnobservable := by
  intro s a b rest hc hp
  obtain ⟨u, hu, hrise, hstep⟩ := step_driving a rest hc hp
  obtain ⟨r, hr⟩ := step_answers hu
  have hrun : ∀ level, runFor 2 { s with inputs := { a with line := level } :: rest } = .next (u.nextTick r) := by
    intro level
    obtain ⟨p, hfirst⟩ := hstep level
    rw [runFor_succ 1 hfirst, runFor_succ 0 ((step_setPrev hu hrise p).trans hr), runFor_zero]
  exact ⟨(hrun b).trans (hrun a.line).symm, _, hrun a.line⟩

/-! ### The output ports -/

/-- `line_oe` is 1 in the two phases that drive the line (R21, R62). -/
theorem lineOe_iff (r : Regs) : r.lineOe = true ↔ r.phase = .startLow ∨ r.phase = .startHigh := by
  unfold Regs.lineOe
  cases r.phase <;> decide

theorem lineOut_eq_false_iff (r : Regs) : r.lineOut = false ↔ r.phase = .startLow := by simp [Regs.lineOut]

theorem busy_iff (r : Regs) : r.busy = true ↔ r.phase ≠ .idle := by simp [Regs.busy]

/-- Settles O50: three ports decode PHASE, the others are registers or bits of OUT. -/
theorem outputPortsOfRegisters : Obligations.OutputPortsOfRegisters :=
  fun r => ⟨lineOe_iff r, lineOut_eq_false_iff r, busy_iff r, rfl, rfl, rfl, rfl, rfl, rfl, rfl, rfl, rfl, rfl, rfl, rfl⟩

/-- Each tier lights an indicator among bits 2:0 of OUT (R162, R166). -/
theorem actuate_shows_tier (c : Config) (t : Byte) (soil : Soil) : (actuate c t soil).toNat % 8 ≠ 0 := by
  unfold actuate
  cases pump c soil <;> cases tier c t <;> decide

/-- The ports at the reset values of R43 (R211). -/
theorem outputs_reset : Regs.reset.outputs =
    { lineOe := false, lineOut := true, busy := false, respOk := false, valid := false, tmo := false
      bytecnt := 0, rbyte := 0, hum := 0, temp := 0, ledSafe := false, ledWarn := false, ledDanger := false
      buzzer := false, pump := false } := by decide

/-- Settles O51: the ports of the reset values, and `actuate_shows_tier`. -/
theorem outputsAfterReset : Obligations.OutputsAfterReset :=
  ⟨fun s hc hr => ⟨s.resetTick, step_reset hc hr, outputs_reset⟩, actuate_shows_tier⟩

/-- Settles O52: the default parameters are legal, and the registers of R43 meet the invariant under any that are. -/
theorem invariantAtReset : Obligations.InvariantAtReset := by
  have hlegal : Config.defaults.ok = true := by decide
  exact (inv_iff _).2 ((inv_iff (State.reset.nextTick Regs.reset)).1 (inv_nextTick_reset hlegal))

end Sys2Proof.Machine
end

section
/-! PROOFS. Bounded waits (spec/41_sensorlink.md R142): with WAIT_TIMEOUT > 0 the ticks left to a SAMPLE are bounded by
a number that every tick lowers, so the operation ends. -/

namespace Sys2Proof.Machine

/-- A busy block whose phase rules lower a measure until an aim holds reaches it within the measure. -/
theorem exists_busyRun {c : Config} {P aim : Regs → Prop} (m : Regs → Nat) (hc : c.ok = true)
    (hbusy : ∀ r, P r → r.phase ≠ .idle ∧ 0 < m r)
    (htick : ∀ lin r r', P r → PhaseEffect c lin r r' →
      aim (r'.setPrev lin) ∨ (P (r'.setPrev lin) ∧ m (r'.setPrev lin) < m r)) :
    ∀ (n : Nat) (s : State), s.cfg = c → s.noReset n → P s.regs → m s.regs ≤ n →
      ∃ k t, k ≤ n ∧ BusyRun s k t ∧ aim t.regs := by
  intro n
  induction n with
  | zero =>
    intro s _ _ hP hm
    have hpos := (hbusy s.regs hP).2
    omega
  | succ n ih =>
    rintro s rfl hres hP hm
    have hfirst : BusyRun s 1 (s.nextTick ((s.regs.phaseTick s.cfg s.lin).setPrev s.lin)) :=
      BusyRun.one (hbusy _ hP).1 (step_busy hc (noReset_head hres (by omega)) (hbusy _ hP).1)
    rcases htick s.lin _ _ hP (phaseTick_effect s.cfg s.lin s.regs) with haim | ⟨hP', hlt⟩
    · exact ⟨1, _, by omega, hfirst, haim⟩
    · obtain ⟨k, t, hk, hrest, haim⟩ :=
        ih (s.nextTick _) rfl (noReset_nextTick hres _) hP' (Nat.le_of_lt_succ (hlt.trans_le hm))
      exact ⟨1 + k, t, by omega, hfirst.trans hrest, haim⟩

/-! ### The registers during a SAMPLE and at its end -/

/-- The registers `r` during a SAMPLE that began with the registers `r₀`. -/
structure Regs.InSample (r₀ r : Regs) : Prop where
  busy : r.phase ≠ .idle
  seq : r.seq = true
  bytes : r.bytesOk
  out : r.out = r₀.out
  hum : r.hum = r₀.hum
  temp : r.temp = r₀.temp

/-- The registers `r` at the end of a SAMPLE that began with the registers `r₀` (R130, R139). -/
structure Regs.SampleEnded (r₀ r : Regs) : Prop where
  idle : r.phase = .idle
  out : r.out = r₀.out
  outcome : (r.valid = true ∧ r.bytecnt = 5 ∧ r.hum = r.hStg ∧ r.temp = r.tStg) ∨
    (r.valid = false ∧ r.hum = r₀.hum ∧ r.temp = r₀.temp)

theorem Regs.InSample.setPrev {r₀ r : Regs} (h : Regs.InSample r₀ r) (b : Bool) : Regs.InSample r₀ (r.setPrev b) :=
  ⟨h.busy, h.seq, h.bytes, h.out, h.hum, h.temp⟩

theorem Regs.SampleEnded.setPrev {r₀ r : Regs} (h : Regs.SampleEnded r₀ r) (b : Bool) :
    Regs.SampleEnded r₀ (r.setPrev b) :=
  ⟨h.idle, h.out, h.outcome⟩

section Sample
variable {c : Config} {lin : Bool} {r₀ r r' : Regs}

/-- An abort ends a SAMPLE with VALID = 0 and the reading as it was; the commit ends it with VALID = 1; the other phase
rules go on (R130, R131, R132, R139). -/
theorem PhaseEffect.inSample_or_ended (h : PhaseEffect c lin r r') (hs : Regs.InSample r₀ r) :
    Regs.SampleEnded r₀ r' ∨ Regs.InSample r₀ r' := by
  have hbytes : r'.bytesOk := h.bytesOk hs.bytes
  obtain ⟨hbusy, hseq, -, hout, hhum, htemp⟩ := hs
  cases h with
  | rest hp => exact absurd hp hbusy
  | highEnds _ _ hq | responseEnds _ _ _ hq | byteEnds _ _ _ hq => simp [hseq] at hq
  | commits => exact .inl ⟨rfl, hout, .inl ⟨rfl, rfl, rfl, rfl⟩⟩
  | firstSampleFails | secondSampleFails | timesOut => exact .inl ⟨rfl, hout, .inr ⟨if_pos hseq, hhum, htemp⟩⟩
  | count | waitCounts | waitHangs => exact .inr ⟨hbusy, hseq, hbytes, hout, hhum, htemp⟩
  | lowEnds | highGoesOn | firstSamplePasses | responseGoesOn | rises | samples | slotEnds | nextByte =>
    exact .inr ⟨Phase.noConfusion, hseq, hbytes, hout, hhum, htemp⟩

/-! ### The ticks left -/

/-- The most ticks of a bit slot with bounded waits: two waits and the sample delay (R142). -/
def slotTicks (c : Config) : Nat := 2 * c.waitTimeout + c.tSample

/-- The bit slots of the frame after the current one. -/
def Regs.slotsAfter (r : Regs) : Nat := 39 - (8 * r.bytecnt.toNat + r.bitcnt.toNat)

/-- The most ticks of a SAMPLE after the current phase, `slots` bit slots following the current one. -/
def ticksAfter (c : Config) (slots : Nat) (p : Phase) : Nat :=
  match p with
  | .idle => 0
  | .startLow => c.tStartHigh + (c.tGuard + 1) + c.tResp + 40 * slotTicks c
  | .startHigh => (c.tGuard + 1) + c.tResp + 40 * slotTicks c
  | .respGuard => c.tResp + 40 * slotTicks c
  | .respWait => 40 * slotTicks c
  | .bitRise => c.tSample + c.waitTimeout + slots * slotTicks c
  | .bitDelay => c.waitTimeout + slots * slotTicks c
  | .bitFall => slots * slotTicks c

/-- The most ticks left to a SAMPLE: TMR runs down to 0 in the current phase, then the other phases follow. -/
def ticksLeft (c : Config) (r : Regs) : Nat := r.tmr + 1 + ticksAfter c r.slotsAfter r.phase

/-- The next slot begins with a whole slot less to follow. -/
theorem ticksLeft_next_slot (hw : 0 < c.waitTimeout) (hp : r.phase = .bitFall) (hp' : r'.phase = .bitRise)
    (ht' : r'.tmr = wload c) (hslots : r.slotsAfter = r'.slotsAfter + 1) : ticksLeft c r' < ticksLeft c r := by
  simp only [ticksLeft, hp, hp', ht', hslots, ticksAfter, wload_eq, slotTicks, Nat.succ_mul]
  omega

/-- With bounded waits every tick inside a SAMPLE lowers the ticks left (R142). -/
theorem PhaseEffect.ticksLeft_lt (h : PhaseEffect c lin r r') (hc : c.ok = true) (hw : 0 < c.waitTimeout)
    (hs : Regs.InSample r₀ r) (hs' : Regs.InSample r₀ r') : ticksLeft c r' < ticksLeft c r := by
  have hpos : 1 ≤ c.tStartHigh ∧ 1 ≤ c.tResp ∧ 1 ≤ c.tSample := by
    rw [config_ok_iff] at hc
    omega
  have hbytes : sampleBytesOk r.phase r.bytecnt = true := hs.bytes.2 hs.seq
  cases h with
  | rest hp => exact absurd hp hs.busy
  | highEnds | responseEnds | byteEnds | commits | firstSampleFails | secondSampleFails | timesOut =>
    exact absurd rfl hs'.busy
  | waitHangs _ hw' => omega
  | count _ ht | waitCounts _ _ ht =>
    simp only [ticksLeft, Regs.slotsAfter]
    omega
  | lowEnds hp | highGoesOn hp | firstSamplePasses hp | rises hp =>
    simp only [ticksLeft, Regs.slotsAfter, hp, ticksAfter]
    omega
  | samples hp =>
    simp only [ticksLeft, Regs.slotsAfter, hp, ticksAfter, wload_eq]
    omega
  | responseGoesOn hp =>
    have hzero : r.bytecnt = 0 := by simpa [hp, sampleBytesOk] using hbytes
    have hbits : (0 : BitVec 3).toNat = 0 := rfl
    simp only [ticksLeft, Regs.slotsAfter, hp, hzero, hbits, ticksAfter, wload_eq, slotTicks]
    omega
  | slotEnds hp _ hb =>
    have hle : r.bytecnt.toNat ≤ 4 := by simpa [hp, sampleBytesOk] using hbytes
    refine ticksLeft_next_slot hw hp rfl rfl ?_
    simp only [Regs.slotsAfter]
    bv_omega
  | nextByte hp _ hb _ hy =>
    have hle : r.bytecnt.toNat ≤ 4 := by simpa [hp, sampleBytesOk] using hbytes
    refine ticksLeft_next_slot hw hp rfl rfl ?_
    simp only [Regs.slotsAfter]
    bv_omega

end Sample

/-- Settles O37: the acceptance leaves at most the ticks of the statement, and every tick lowers them until the end. -/
theorem sampleEndsWithTimeout : Obligations.SampleEndsWithTimeout := by
  intro s b hacc hw hb hres
  have hc : s.cfg.ok = true := hacc.legal
  have hlow : 1 ≤ s.cfg.tStartLow := ((config_ok_iff _).1 hc).1.1
  have hbegin : Regs.InSample s.regs ((acceptRegs s.cfg s.regs .sample).setPrev (s.lineAt 0)) :=
    ⟨Phase.noConfusion, rfl, ⟨Nat.zero_le 5, fun _ => rfl⟩, rfl, rfl, rfl⟩
  have hticks : ticksLeft s.cfg ((acceptRegs s.cfg s.regs .sample).setPrev (s.lineAt 0)) ≤ b := by
    simp only [ticksLeft, Regs.setPrev, acceptRegs, ticksAfter, slotTicks]
    omega
  obtain ⟨k, t, hk, hrun, hend⟩ := exists_busyRun (aim := Regs.SampleEnded s.regs) (ticksLeft s.cfg) hc
    (fun r hr => ⟨hr.busy, by unfold ticksLeft; omega⟩)
    (fun lin r r' hr heff => (heff.inSample_or_ended hr).imp (fun h => h.setPrev lin)
      fun h => ⟨h.setPrev lin, heff.ticksLeft_lt hc hw hr h⟩)
    b (s.nextTick ((acceptRegs s.cfg s.regs .sample).setPrev (s.lineAt 0))) rfl (noReset_nextTick hres _) hbegin hticks
  exact ⟨k + 1, t.regs, by omega, endsAt_of_run (accept_step hacc) hrun hend.idle, hend.out, hend.outcome⟩

end Sys2Proof.Machine
end

section
/-! PROOFS. The family spec/20_memory.md: the bits, bytes and the frame that the block reads from legal pulses
(R64 to R66, R137, R138, R218). -/

namespace Sys2Proof.Machine

/-! ### The block at a later tick of an operation

PREV is the line one tick ago at every tick but the first (R39), so a position in an operation is a tick and the
registers besides PREV. -/

/-- The block comes to tick `n`, counted from the current one, busy at the ticks between, with the registers `r` but
for PREV, which is the line at the tick before. -/
def State.AtTick (s : State) (n : Nat) (r : Regs) : Prop :=
  ∃ k r₁ t, n = k + 1 ∧ step s = .next (s.nextTick r₁) ∧ BusyRun (s.nextTick r₁) k t ∧
    t.regs = r.setPrev (s.lineAt k)

@[simp] theorem setPrev_phase (r : Regs) (b : Bool) : (r.setPrev b).phase = r.phase := rfl

namespace State.AtTick
variable {s : State} {n m : Nat} {r r' : Regs}

/-- The tick after the acceptance of a command (R110, R115). -/
theorem accept {i : Instr} (h : s.Accepts i) : s.AtTick 1 (acceptRegs s.cfg s.regs i) :=
  ⟨0, _, _, rfl, accept_step h, BusyRun.refl _, rfl⟩

theorem pos (h : s.AtTick n r) : 0 < n := by
  obtain ⟨k, -, -, rfl, -⟩ := h
  exact Nat.succ_pos k

theorem legal (h : s.AtTick n r) : s.cfg.ok = true := by
  obtain ⟨_, _, _, _, hstep, -⟩ := h
  exact (step_cases hstep).1

/-- What `r` says of PREV does not matter. -/
theorem of_setPrev {b : Bool} (h : s.AtTick n (r.setPrev b)) : s.AtTick n r := h

/-- The end of an operation (R227). -/
theorem endsAt (h : s.AtTick n r) (hi : r.phase = .idle) : s.EndsAt n (r.setPrev (s.lineAt (n - 1))) := by
  obtain ⟨k, r₁, t, rfl, hstep, hrun, hregs⟩ := h
  have hidle : t.regs.phase = .idle := by rw [hregs, setPrev_phase, hi]
  have hend := endsAt_of_run hstep hrun hidle
  rwa [hregs] at hend

/-- One more tick without reset: a phase rule fires, and reads in PREV the line at the tick before (R39, R186). -/
theorem tick (h : s.AtTick n r) (hres : (s.inputAt n).rst = false) (hp : r.phase ≠ .idle)
    (heff : PhaseEffect s.cfg (s.lineAt n) (r.setPrev (s.lineAt (n - 1))) r') : s.AtTick (n + 1) r' := by
  obtain ⟨k, r₁, t, rfl, hstep, hrun, hregs⟩ := h
  have hin : t.inputAt 0 = s.inputAt (k + 1) := (hrun.inputs 0).trans (inputAt_nextTick s r₁ k)
  have hline : t.lineAt 0 = s.lineAt (k + 1) := congrArg Inputs.line hin
  have hphase : t.regs.phase = r.phase := by rw [hregs, setPrev_phase]
  have hrst : t.input.rst = false := (congrArg Inputs.rst hin).trans hres
  have hok : t.cfg.ok = true := by
    rw [hrun.cfg]
    exact (step_cases hstep).1
  have htick : t.regs.phaseTick t.cfg (t.lineAt 0) = r' := by
    rw [hregs, hrun.cfg, hline]
    exact heff.eq_phaseTick.symm
  have hone := busy_tick hok hrst hphase hp
  rw [htick, hline] at hone
  exact ⟨k + 1, r₁, _, rfl, hstep, hrun.trans hone, rfl⟩

/-- Outside BIT_RISE the rule that fires does not read PREV (R63). -/
theorem tick_of_ne_bitRise (h : s.AtTick n r) (hres : (s.inputAt n).rst = false) (hp : r.phase ≠ .idle)
    (hb : r.phase ≠ .bitRise) (heff : PhaseEffect s.cfg (s.lineAt n) r r') : s.AtTick (n + 1) r' :=
  (h.tick hres hp (heff.setPrev hb _)).of_setPrev

/-- A timed phase: TMR runs down to 0 by the tick `m` of the end action (R120). -/
theorem timed (h : s.AtTick n r) (hp : r.phase.timed = true) (hm : n + r.tmr = m) (hres : s.noReset (m + 1))
    (heff : PhaseEffect s.cfg (s.lineAt m) { r with tmr := 0 } r') : s.AtTick (m + 1) r' := by
  have hbusy : r.phase ≠ .idle := fun hi => by simp [hi, Phase.timed] at hp
  have hrise : r.phase ≠ .bitRise := fun hi => by simp [hi, Phase.timed] at hp
  induction ht : r.tmr generalizing n r with
  | zero =>
    obtain rfl : n = m := by omega
    have hr : { r with tmr := 0 } = r := by rw [← ht]
    rw [hr] at heff
    exact h.tick_of_ne_bitRise (hres n (by omega)) hbusy hrise heff
  | succ i ih =>
    have hcount : PhaseEffect s.cfg (s.lineAt n) r { r with tmr := i } := by
      have heff' : PhaseEffect s.cfg (s.lineAt n) r { r with tmr := r.tmr - 1 } := .count hp (by omega)
      rwa [ht] at heff'
    have hnext := h.tick_of_ne_bitRise (hres n (by omega)) hbusy hrise hcount
    exact ih hnext hp (by simp only; omega) heff hbusy hrise rfl

/-- An unbounded wait whose level does not come for `m` ticks changes nothing (R125, R128). -/
theorem wait (h : s.AtTick n r) (hw : s.cfg.waitTimeout = 0) (hres : s.noReset (n + m))
    (hs : ∀ j, n ≤ j → j < n + m → (r.setPrev (s.lineAt (j - 1))).stillWaits s.cfg (s.lineAt j)) :
    s.AtTick (n + m) r := by
  induction m with
  | zero => exact h
  | succ m ih =>
    have hwait := hs (n + m) (by omega) (by omega)
    have hbusy : r.phase ≠ .idle := by
      intro hi
      obtain ⟨hp, -⟩ | ⟨hp, -⟩ := hwait <;> exact Phase.noConfusion (hi.symm.trans hp)
    have hthere := ih (noReset_mono hres (by omega)) (fun j h1 h2 => hs j h1 (by omega))
    exact (hthere.tick (hres _ (by omega)) hbusy (.waitHangs hwait hw)).of_setPrev

/-- The wait for a rise, over ticks without one (R125). -/
theorem wait_rise (h : s.AtTick n r) (hw : s.cfg.waitTimeout = 0) (hp : r.phase = .bitRise)
    (hres : s.noReset (n + m)) (hno : ∀ j, n ≤ j → j < n + m → s.riseAt j = false) : s.AtTick (n + m) r := by
  refine h.wait hw hres fun j h1 h2 => .inl ⟨hp, ?_⟩
  have hj : j ≠ 0 := (h.pos.trans_le h1).ne'
  have hrise := hno j h1 h2
  rwa [State.riseAt, if_neg hj] at hrise

end State.AtTick

/-! ### The levels of a pulse -/

theorem length_waveOf_cons (p : Pulse) (ps : List Pulse) :
    (waveOf (p :: ps)).length = p.high + p.low + (waveOf ps).length := by simp [waveOf, Nat.add_assoc]

theorem waveOf_append (ps qs : List Pulse) : waveOf (ps ++ qs) = waveOf ps ++ waveOf qs := by
  induction ps with
  | nil => rfl
  | cons p ps ih => simp [waveOf, ih]

/-- Levels in two parts, the second part from the end of the first on. -/
theorem lineFollows_append {s : State} {n : Nat} {u v : List Bool} (h : s.lineFollows n (u ++ v)) :
    s.lineFollows n u ∧ s.lineFollows (n + u.length) v := by
  constructor
  · intro j hj
    have := h j (by rw [List.length_append]; omega)
    rwa [List.getElem?_append_left hj] at this
  · intro j hj
    have := h (u.length + j) (by rw [List.length_append]; omega)
    rwa [List.getElem?_append_right (Nat.le_add_right _ _), Nat.add_sub_cancel_left, ← Nat.add_assoc] at this

/-- The line shows the legal pulses `ps` from tick `n` on, without reset, after a tick low. -/
structure State.Pulses (s : State) (n : Nat) (ps : List Pulse) : Prop where
  low : s.lineAt (n - 1) = false
  legal : ∀ p ∈ ps, p.legal s.cfg.tSample = true
  noReset : s.noReset (n + (waveOf ps).length)
  follows : s.lineFollows n (waveOf ps)

section Pulses
variable {s : State} {n : Nat} {p : Pulse} {ps qs : List Pulse}

/-- R218 at the three ticks that matter: the sample tells the bit, the first tick is high, and a low tick follows the
sample. -/
theorem Pulse.legal_cases {t : Nat} (h : p.legal t = true) :
    1 ≤ p.high ∧ decide (t < p.high) = p.bit ∧ max p.high (t + 1) < p.high + p.low := by
  cases hb : p.bit
  case true =>
    simp only [Pulse.legal, hb, if_true, Bool.and_eq_true, decide_eq_true_eq] at h ⊢
    omega
  case false =>
    simp only [Pulse.legal, hb, Bool.false_eq_true, if_false, Bool.and_eq_true, decide_eq_true_eq,
      decide_eq_false_iff_not] at h ⊢
    omega

/-- The line during a pulse. -/
theorem State.Pulses.level (h : s.Pulses n [p]) {j : Nat} (hn : n ≤ j) (hj : j < n + (p.high + p.low)) :
    s.lineAt j = decide (j < n + p.high) := by
  obtain ⟨i, rfl⟩ := Nat.exists_eq_add_of_le hn
  have hi : i < p.high + p.low := Nat.lt_of_add_lt_add_left hj
  have hline := h.follows i (by simpa [waveOf] using hi)
  by_cases hh : i < p.high
  · simpa [waveOf, List.getElem?_append, List.getElem?_replicate, hh] using hline.symm
  · have hl : i - p.high < p.low := by omega
    simpa [waveOf, List.getElem?_append, List.getElem?_replicate, hh, hl] using hline.symm

theorem State.Pulses.left (h : s.Pulses n (ps ++ qs)) : s.Pulses n ps := by
  obtain ⟨hlow, hlegal, hres, hfol⟩ := h
  rw [waveOf_append] at hres hfol
  rw [List.length_append] at hres
  exact ⟨hlow, fun p hp => hlegal p (List.mem_append_left _ hp), noReset_mono hres (by omega),
    (lineFollows_append hfol).1⟩

theorem State.Pulses.head (h : s.Pulses n (p :: ps)) : s.Pulses n [p] := h.left (ps := [p])

/-- The pulses after the first, whose last tick is low. -/
theorem State.Pulses.tail (h : s.Pulses n (p :: ps)) : s.Pulses (n + (p.high + p.low)) ps := by
  obtain ⟨-, -, hshort⟩ := Pulse.legal_cases (h.legal p List.mem_cons_self)
  have hlow : s.lineAt (n + (p.high + p.low) - 1) = false := by
    rw [h.head.level (by omega) (by omega), decide_eq_false_iff_not]
    omega
  obtain ⟨-, hlegal, hres, hfol⟩ := h
  rw [length_waveOf_cons, ← Nat.add_assoc] at hres
  refine ⟨hlow, fun q hq => hlegal q (List.mem_cons_of_mem p hq), hres, ?_⟩
  simpa [waveOf] using (lineFollows_append (u := waveOf [p]) (by simpa [waveOf] using hfol)).2

theorem State.Pulses.right (h : s.Pulses n (ps ++ qs)) : s.Pulses (n + (waveOf ps).length) qs := by
  induction ps generalizing n with
  | nil => exact h
  | cons p ps ih =>
    rw [length_waveOf_cons, ← Nat.add_assoc]
    exact ih h.tail

end Pulses

/-! ### One bit slot -/

/-- A low line does not rise, in either RISE_MODE (R126). -/
theorem rise_of_low (mode : RiseMode) (prev : Bool) : rise mode prev false = false := by cases mode <;> rfl

/-- A line that was low and is high rises, in either RISE_MODE (R126). -/
theorem rise_low_high (mode : RiseMode) : rise mode false true = true := by cases mode <;> rfl

/-- The block comes to the registers `r` at tick `n` or before it, and the line is low from the tick before that one
on until tick `n`. -/
def State.SettlesBy (s : State) (n : Nat) (r : Regs) : Prop :=
  ∃ k ≤ n, s.AtTick k r ∧ ∀ j, k - 1 ≤ j → j < n → s.lineAt j = false

/-- In BIT_RISE the low line is waited out (R125). -/
theorem State.SettlesBy.atTick {s : State} {n : Nat} {r : Regs} (h : s.SettlesBy n r) (hw : s.cfg.waitTimeout = 0)
    (hp : r.phase = .bitRise) (hres : s.noReset n) : s.AtTick n r := by
  obtain ⟨k, hk, hat, hlow⟩ := h
  obtain ⟨m, rfl⟩ := Nat.exists_eq_add_of_le hk
  refine hat.wait hw hres fun j h1 h2 => .inl ⟨hp, ?_⟩
  rw [hlow j (by omega) h2]
  exact rise_of_low _ _

/-- An operation that has ended has seen the line low at its last tick. -/
theorem State.SettlesBy.endsAt {s : State} {n : Nat} {r : Regs} (h : s.SettlesBy n r) (hi : r.phase = .idle) :
    ∃ k, k ≤ n ∧ s.EndsAt k (r.setPrev false) := by
  obtain ⟨k, hk, hat, hlow⟩ := h
  have hpos := hat.pos
  refine ⟨k, hk, ?_⟩
  rw [← hlow (k - 1) (Nat.le_refl _) (by omega)]
  exact hat.endsAt hi

/-- The registers after a sample that read `b`, PREV aside (R127). -/
def Regs.sampled (c : Config) (r : Regs) (b : Bool) : Regs :=
  { r with phase := .bitFall, tmr := wload c, shreg := shiftIn r.shreg b }

/-- The registers after a bit slot whose sample read `b`, PREV aside (R128). -/
def Regs.slotDone (c : Config) (r : Regs) (b : Bool) : Regs := (r.sampled c b).endOfSlot c

/-- The registers after a byte `b` was read, PREV aside (R129). -/
def Regs.byteDone (c : Config) (r : Regs) (b : Byte) : Regs :=
  { r with phase := .bitFall, tmr := wload c, bitcnt := 7, shreg := b }.endOfByte c

section Slots
variable {s : State} {n : Nat} {r : Regs} {p : Pulse} {ps : List Pulse}

/-- The rise is seen at the first tick of a legal pulse, and the sample T_SAMPLE ticks later reads its bit (R87). -/
theorem State.AtTick.sampled (h : s.AtTick n r) (hp : r.phase = .bitRise) (hpulse : s.Pulses n [p]) :
    s.AtTick (n + s.cfg.tSample + 1) (r.sampled s.cfg p.bit) := by
  obtain ⟨-, -, -, -, ⟨hsample, -⟩, -⟩ := (config_ok_iff _).1 h.legal
  obtain ⟨hhigh, hbit, hshort⟩ := Pulse.legal_cases (hpulse.legal p List.mem_cons_self)
  have hres := hpulse.noReset
  rw [length_waveOf_cons] at hres
  have hrises : rise s.cfg.riseMode (s.lineAt (n - 1)) (s.lineAt n) = true := by
    rw [hpulse.low, hpulse.level (Nat.le_refl n) (by omega), decide_eq_true (by omega)]
    exact rise_low_high _
  have hdelay : s.AtTick (n + 1) { r with phase := .bitDelay, tmr := s.cfg.tSample - 1 } :=
    (h.tick (hres n (by omega)) (by simp [hp]) (.rises hp hrises)).of_setPrev
  have hread : s.lineAt (n + s.cfg.tSample) = p.bit := by
    rw [hpulse.level (by omega) (by omega), ← hbit, decide_eq_decide]
    omega
  rw [← hread]
  exact hdelay.timed rfl (by simp only; omega) (noReset_mono hres (by omega)) (.samples rfl rfl)

/-- A legal pulse is one bit slot, which ends at its first low tick after the sample (R87, R218). -/
theorem State.AtTick.slot (h : s.AtTick n r) (hw : s.cfg.waitTimeout = 0) (hp : r.phase = .bitRise)
    (hpulse : s.Pulses n [p]) : s.SettlesBy (n + (waveOf [p]).length) (r.slotDone s.cfg p.bit) := by
  obtain ⟨-, -, hshort⟩ := Pulse.legal_cases (hpulse.legal p List.mem_cons_self)
  obtain ⟨w, hwidth⟩ := Nat.exists_eq_add_of_le (Nat.le_max_right p.high (s.cfg.tSample + 1))
  have hres := hpulse.noReset
  rw [length_waveOf_cons] at hres ⊢
  have hhigh : ∀ j, n ≤ j → j < n + p.high → s.lineAt j = true := fun j h1 h2 => by
    rw [hpulse.level h1 (by omega), decide_eq_true h2]
  have hlow : ∀ j, n + p.high ≤ j → j < n + (p.high + p.low) → s.lineAt j = false := fun j h1 h2 => by
    rw [hpulse.level (by omega) h2, decide_eq_false (by omega)]
  have hfall : s.AtTick (n + s.cfg.tSample + 1 + w) (r.sampled s.cfg p.bit) :=
    (h.sampled hp hpulse).wait hw (noReset_mono hres (by omega)) fun j h1 h2 =>
      .inr ⟨rfl, hhigh j (by omega) (by omega)⟩
  refine ⟨n + s.cfg.tSample + 1 + w + 1, by omega, ?_, fun j h1 h2 => hlow j (by omega) h2⟩
  refine hfall.tick_of_ne_bitRise (hres _ (by omega)) Phase.noConfusion Phase.noConfusion ?_
  rw [hlow _ (by omega) (by omega)]
  exact endOfSlot_effect rfl

/-! ### Eight bit slots -/

/-- The registers after the bits `bits` of one byte, the eighth not among them. -/
def Regs.shiftBits (r : Regs) (bits : List Bool) : Regs :=
  { r with bitcnt := r.bitcnt + BitVec.ofNat 3 bits.length, shreg := bits.foldl shiftIn r.shreg }

/-- A slot that does not end its byte shifts one bit in and counts it (R128). -/
theorem slotDone_inner (c : Config) (b : Bool) (hp : r.phase = .bitRise) (ht : r.tmr = wload c)
    (hb : r.bitcnt ≠ 7) : r.slotDone c b = r.shiftBits [b] := by
  have h : r.slotDone c b = _ := endOfSlot_inner (r := r.sampled c b) c hb
  rw [h, ← hp, ← ht]
  rfl

/-- The eighth slot ends the byte (R128). -/
theorem slotDone_last (c : Config) (b : Bool) (hb : r.bitcnt = 7) :
    r.slotDone c b = r.byteDone c (shiftIn r.shreg b) := by
  have h : r.slotDone c b = _ := endOfSlot_last (r := r.sampled c b) c hb
  rw [h, Regs.byteDone, ← hb]
  rfl

theorem shiftBits_cons (r : Regs) (b : Bool) (bits : List Bool) :
    (r.shiftBits [b]).shiftBits bits = r.shiftBits (b :: bits) := by
  have hcnt : r.bitcnt + 1 + BitVec.ofNat 3 bits.length = r.bitcnt + BitVec.ofNat 3 (bits.length + 1) := by
    rw [BitVec.ofNat_add, BitVec.add_assoc, BitVec.add_comm 1]
    rfl
  simpa [Regs.shiftBits] using hcnt

/-- The pulses of a byte before its eighth. -/
theorem State.AtTick.slots (h : s.AtTick n r) (hw : s.cfg.waitTimeout = 0) (hp : r.phase = .bitRise)
    (ht : r.tmr = wload s.cfg) (hcnt : r.bitcnt.toNat + ps.length ≤ 7) (hpulses : s.Pulses n ps) :
    s.AtTick (n + (waveOf ps).length) (r.shiftBits (ps.map Pulse.bit)) := by
  induction ps generalizing n r with
  | nil => simpa [Regs.shiftBits, waveOf] using h
  | cons p ps ih =>
    rw [List.length_cons] at hcnt
    have hne : r.bitcnt ≠ 7 := fun h7 => by simp [h7] at hcnt
    have hone := h.slot hw hp hpulses.head
    rw [slotDone_inner _ _ hp ht hne] at hone
    have hcnt' : (r.bitcnt + 1).toNat + ps.length ≤ 7 := by bv_omega
    have hrest := ih (hone.atTick hw hp hpulses.head.noReset) hp ht hcnt' (hpulses.right (ps := [p]))
    rwa [shiftBits_cons, Nat.add_assoc, ← List.length_append, ← waveOf_append] at hrest

/-- The shifter in numbers, over several bits (R65, R86). -/
theorem foldl_shiftIn (b : Byte) (bits : List Bool) :
    bits.foldl shiftIn b = BitVec.ofNat 8 (b.toNat * 2 ^ bits.length + msbFirst bits) := by
  induction bits using List.reverseRecOn with
  | nil => simp [msbFirst]
  | append_singleton bits lin ih =>
    have hnumber : msbFirst (bits ++ [lin]) = 2 * msbFirst bits + lin.toNat := by simp [msbFirst]
    apply BitVec.eq_of_toNat_eq
    rw [List.foldl_append, List.foldl_cons, List.foldl_nil, shiftIn_toNat, ih, hnumber, List.length_append,
      List.length_singleton, pow_succ, BitVec.toNat_ofNat, BitVec.toNat_ofNat, ← mul_assoc]
    omega

/-- Eight bits leave nothing of the old byte (R86). -/
theorem foldl_shiftIn_eight (b : Byte) {bits : List Bool} (h : bits.length = 8) :
    bits.foldl shiftIn b = streamByte bits 0 := by
  have hall : bits.take 8 = bits := List.take_of_length_le (by omega)
  apply BitVec.eq_of_toNat_eq
  rw [foldl_shiftIn, h, streamByte, Nat.mul_zero, List.drop_zero, hall, BitVec.toNat_ofNat, BitVec.toNat_ofNat]
  omega

/-- A standalone RDBYTE ends with the byte (R129). -/
theorem byteDone_standalone (c : Config) (b : Byte) (hq : r.seq = false) :
    r.byteDone c b = { r with phase := .idle, tmr := wload c, bitcnt := 0, shreg := b } := by
  obtain ⟨-, h⟩ | ⟨hs, -⟩ | ⟨hs, -⟩ :=
    endOfByte_cases c { r with phase := .bitFall, tmr := wload c, bitcnt := 7, shreg := b }
  · exact h
  all_goals exact absurd (hq.symm.trans hs) Bool.noConfusion

/-- The end of a byte does not depend on how far the byte was read. -/
theorem byteDone_shiftBits (c : Config) (r : Regs) (bits : List Bool) (b : Byte) :
    (r.shiftBits bits).byteDone c b = r.byteDone c b := rfl

/-- Eight legal pulses are one byte, the first bit the most significant (R65, R86). -/
theorem State.AtTick.byte (h : s.AtTick n r) (hw : s.cfg.waitTimeout = 0) (hp : r.phase = .bitRise)
    (ht : r.tmr = wload s.cfg) (hb : r.bitcnt = 0) (hlen : ps.length = 8) (hpulses : s.Pulses n ps) :
    s.SettlesBy (n + (waveOf ps).length) (r.byteDone s.cfg (streamByte (ps.map Pulse.bit) 0)) := by
  obtain ⟨qs, p, rfl⟩ : ∃ qs p, ps = qs ++ [p] :=
    ⟨_, _, (List.dropLast_append_getLast (List.ne_nil_of_length_eq_add_one hlen)).symm⟩
  have hseven : qs.length = 7 := by simpa using hlen
  have hcnt : (r.shiftBits (qs.map Pulse.bit)).bitcnt = 7 := by simp [Regs.shiftBits, hb, hseven]
  have hshreg : shiftIn (r.shiftBits (qs.map Pulse.bit)).shreg p.bit =
      streamByte ((qs ++ [p]).map Pulse.bit) 0 := by
    rw [← foldl_shiftIn_eight r.shreg (by simpa using hlen), List.map_append, List.foldl_append]
    rfl
  have hinner := h.slots hw hp ht (by simp [hb, hseven]) hpulses.left
  have hlast := hinner.slot hw hp hpulses.right
  rwa [slotDone_last _ _ hcnt, hshreg, byteDone_shiftBits, Nat.add_assoc, ← List.length_append,
    ← waveOf_append] at hlast

end Slots

/-! ### A frame of bytes -/

section Frame
variable {s : State} {n : Nat} {c : Config} {r : Regs} {ps : List Pulse}

/-- The registers of a block inside SAMPLE that is to read byte `k` of the frame, TMR as the wait loads it (R32). -/
structure Regs.AwaitsByte (c : Config) (k : Nat) (r : Regs) : Prop where
  phase : r.phase = .bitRise
  tmr : r.tmr = wload c
  bitcnt : r.bitcnt = 0
  seq : r.seq = true
  bytecnt : r.bytecnt = BitVec.ofNat 3 k

/-- The registers after the first `m` bytes of the bits `bits` of a frame, PREV aside (R64, R85). -/
def Regs.bytesDone (c : Config) (r : Regs) (bits : List Bool) : Nat → Regs
  | 0 => r
  | m + 1 => (r.bytesDone c bits m).byteDone c (streamByte bits m)

/-- After bytes 0 to 3 of a frame the block is to read the next byte (R129). -/
theorem Regs.AwaitsByte.byteDone {k : Nat} (h : r.AwaitsByte c k) (hk : k < 4) (b : Byte) :
    (r.byteDone c b).AwaitsByte c (k + 1) := by
  obtain ⟨-, -, -, hseq, hbytes⟩ := h
  have hnot : r.bytecnt ≠ 4 := by
    rw [hbytes]
    bv_omega
  obtain ⟨hq, -⟩ | ⟨-, hy, -⟩ | ⟨-, -, hnext⟩ :=
    endOfByte_cases c { r with phase := .bitFall, tmr := wload c, bitcnt := 7, shreg := b }
  · exact absurd (hseq.symm.trans hq) Bool.noConfusion
  · exact absurd hy hnot
  · rw [Regs.byteDone, hnext]
    exact ⟨rfl, rfl, rfl, hseq, by rw [hbytes, BitVec.ofNat_add]; rfl⟩

theorem Regs.AwaitsByte.bytesDone (h : r.AwaitsByte c 0) (bits : List Bool) {m : Nat} (hm : m ≤ 4) :
    (r.bytesDone c bits m).AwaitsByte c m := by
  induction m with
  | zero => exact h
  | succ m ih => exact (ih (by omega)).byteDone (by omega) _

/-- The next byte of a frame whose first `m` bytes have been read (R64, R129). -/
theorem State.AtTick.frame_byte {m : Nat} (h : s.AtTick (n + (waveOf (ps.take (8 * m))).length)
      (r.bytesDone s.cfg (ps.map Pulse.bit) m)) (hw : s.cfg.waitTimeout = 0) (hr : r.AwaitsByte s.cfg 0)
    (hm : m ≤ 4) (hlen : ps.length = 40) (hpulses : s.Pulses n ps) :
    s.SettlesBy (n + (waveOf (ps.take (8 * (m + 1)))).length) (r.bytesDone s.cfg (ps.map Pulse.bit) (m + 1)) := by
  obtain ⟨hp, ht, hb, -, -⟩ := hr.bytesDone (ps.map Pulse.bit) hm
  have height : ((ps.drop (8 * m)).take 8).length = 8 := by
    rw [List.length_take, List.length_drop]
    omega
  have hsplit : ps.take (8 * (m + 1)) = ps.take (8 * m) ++ (ps.drop (8 * m)).take 8 := List.take_add
  have hbyte : streamByte (((ps.drop (8 * m)).take 8).map Pulse.bit) 0 = streamByte (ps.map Pulse.bit) m := by
    simp [streamByte, List.map_take, List.map_drop, List.take_take]
  have hnow : s.Pulses (n + (waveOf (ps.take (8 * m))).length) ((ps.drop (8 * m)).take 8) := by
    rw [← List.take_append_drop (8 * (m + 1)) ps, hsplit] at hpulses
    exact hpulses.left.right
  have hread := h.byte hw hp ht hb height hnow
  rwa [hbyte, Nat.add_assoc, ← List.length_append, ← waveOf_append, ← hsplit] at hread

/-- The first bytes of a frame, up to four. -/
theorem State.AtTick.frame_bytes {m : Nat} (h : s.AtTick n r) (hw : s.cfg.waitTimeout = 0)
    (hr : r.AwaitsByte s.cfg 0) (hm : m ≤ 4) (hlen : ps.length = 40) (hpulses : s.Pulses n ps) :
    s.AtTick (n + (waveOf (ps.take (8 * m))).length) (r.bytesDone s.cfg (ps.map Pulse.bit) m) := by
  induction m with
  | zero => exact h
  | succ m ih =>
    have hread := (ih (by omega)).frame_byte hw hr (by omega) hlen hpulses
    rw [← List.take_append_drop (8 * (m + 1)) ps] at hpulses
    exact hread.atTick hw (hr.bytesDone _ hm).phase hpulses.left.noReset

/-- Forty legal pulses are the five bytes of a frame (R64). -/
theorem State.AtTick.frame (h : s.AtTick n r) (hw : s.cfg.waitTimeout = 0) (hr : r.AwaitsByte s.cfg 0)
    (hlen : ps.length = 40) (hpulses : s.Pulses n ps) :
    s.SettlesBy (n + (waveOf ps).length) (r.bytesDone s.cfg (ps.map Pulse.bit) 5) := by
  have hall : ps.take (8 * (4 + 1)) = ps := List.take_of_length_le (by omega)
  have hread := (h.frame_bytes hw hr (Nat.le_refl 4) hlen hpulses).frame_byte hw hr (Nat.le_refl 4) hlen hpulses
  rwa [hall] at hread

/-- The registers after the fifth byte: the commit, with bytes 0 and 2 staged on the way (R129, R130). -/
theorem bytesDone_five (h : r.AwaitsByte c 0) (bits : List Bool) :
    r.bytesDone c bits 5 =
      { r with
        phase := .idle, tmr := wload c, bytecnt := 5, valid := true
        hum := streamByte bits 0, temp := streamByte bits 2
        hStg := streamByte bits 0, tStg := streamByte bits 2, shreg := streamByte bits 4 } := by
  obtain ⟨p, q, t, bc, yc, sh, h1, t1, h2, t2, v, ro, tm, pv, o⟩ := r
  obtain ⟨rfl, rfl, rfl, rfl, rfl⟩ := h
  rfl

end Frame

/-! ### The operations -/

/-- Settles O33: the lead is waited out, and the eight pulses are one byte, at whose end a standalone RDBYTE ends. -/
theorem rdbyteReadsEightPulses : Obligations.RdbyteReadsEightPulses := by
  intro s lead ps hacc hw hlen hlegal hres hlead hlow hfol
  have hzero : wload s.cfg = 0 := by rw [wload_eq, hw]
  have hpulses : s.Pulses (lead + 1) ps := ⟨hlow, hlegal, hres, hfol⟩
  have hbegin : s.AtTick (1 + lead) (acceptRegs s.cfg s.regs .rdbyte) :=
    (State.AtTick.accept hacc).wait_rise hw rfl (noReset_mono hres (by omega)) fun j h1 h2 =>
      hlead j h1 (by omega)
  rw [Nat.add_comm] at hbegin
  have hbyte := hbegin.byte hw rfl rfl rfl hlen hpulses
  rw [byteDone_standalone _ _ rfl, hzero] at hbyte
  exact hbyte.endsAt rfl

/-- The registers of a SAMPLE that began with the registers `r`, after a response that passed (R115, R124). -/
def Regs.responded (c : Config) (r : Regs) : Regs :=
  { r with
    seq := true, bytecnt := 0, tmo := false, respOk := true, bitcnt := 0, phase := .bitRise, tmr := wload c }

/-- The start signal and a response that passes both samples: four timed phases (R121 to R124, R138). -/
theorem State.Accepts.responded {s : State} {g b : Nat} (hacc : s.Accepts .sample)
    (hg : g = s.cfg.tStartLow + s.cfg.tStartHigh + 1 + s.cfg.tGuard) (hb : b = g + s.cfg.tResp)
    (hres : s.noReset (b + 1)) (hfirst : s.lineAt g = false) (hsecond : s.lineAt b = true) :
    s.AtTick (b + 1) (s.regs.responded s.cfg) := by
  obtain ⟨⟨hlow, -⟩, ⟨hhigh, -⟩, -, ⟨hresp, -⟩, -⟩ := (config_ok_iff _).1 hacc.legal
  have hstart : s.AtTick 1 (acceptRegs s.cfg s.regs .sample) := .accept hacc
  have hdriveHigh := hstart.timed (m := s.cfg.tStartLow) rfl (by simp only [acceptRegs]; omega)
    (noReset_mono hres (by omega)) (.lowEnds rfl rfl)
  have hguard := hdriveHigh.timed (m := s.cfg.tStartLow + s.cfg.tStartHigh) rfl (by simp only; omega)
    (noReset_mono hres (by omega)) (.highGoesOn rfl rfl rfl)
  have hwait := hguard.timed (m := g) rfl hg.symm (noReset_mono hres (by omega)) (.firstSamplePasses rfl rfl hfirst)
  exact hwait.timed (m := b) rfl (by simp only; omega) hres (.responseGoesOn rfl rfl hsecond rfl)

/-- Settles O34: after the response the lead is waited out, and the forty pulses are the five bytes of the frame. -/
theorem sampleCommitsFrameSent : Obligations.SampleCommitsFrameSent := by
  intro s lead b ps hacc hw hlen hb hlegal hres hfirst hsecond hlead hlow hfol
  have hzero : wload s.cfg = 0 := by rw [wload_eq, hw]
  have hpulses : s.Pulses (b + 1 + lead) ps := ⟨by rwa [Nat.add_right_comm], hlegal, hres, hfol⟩
  have hresponse : s.AtTick (b + 1) (s.regs.responded s.cfg) :=
    hacc.responded (g := b - s.cfg.tResp) (by omega) (by omega) (noReset_mono hres (by omega)) hfirst hsecond
  have hbegin : s.AtTick (b + 1 + lead) (s.regs.responded s.cfg) :=
    hresponse.wait_rise hw rfl (noReset_mono hres (by omega)) fun j h1 h2 => hlead j h1 (by omega)
  have hawaits : (s.regs.responded s.cfg).AwaitsByte s.cfg 0 := ⟨rfl, rfl, rfl, rfl, rfl⟩
  have hframe := hbegin.frame hw hawaits hlen hpulses
  rw [bytesDone_five hawaits, hzero] at hframe
  exact hframe.endsAt rfl

end Sys2Proof.Machine
end

section
/-! PROOFS. The family spec/30_encoding.md: the command word, decoded and encoded (R80 to R84, R92), and the pulse width
that tells a 1 from a 0 (R88). -/

namespace Sys2Proof.Machine

/-! ### The fields of a word in numbers -/

/-- `cw[2:0]` (R80). -/
theorem codeField_toNat (w : CmdWord) : (codeField w).toNat = w.toNat % 8 := by simp [codeField]

/-- `cw[18:3]` (R80). -/
theorem operandField_toNat (w : CmdWord) : (operandField w).toNat = w.toNat / 8 := by
  have hfits : w.toNat / 8 < 2 ^ 16 := by omega
  rw [operandField, BitVec.extractLsb'_toNat, Nat.shiftRight_eq_div_pow]
  exact Nat.mod_eq_of_lt hfits

theorem codeField_eq_five_iff (w : CmdWord) : codeField w = 5 ↔ w.toNat % 8 = 5 := by
  rw [← codeField_toNat, ← BitVec.toNat_inj]
  rfl

/-- R92: `(operand << 3) | code`. -/
theorem wordOf_toNat (operand : Soil) (code : CmdCode) :
    (wordOf operand code).toNat = 8 * operand.toNat + code.toNat := by
  have happend : (wordOf operand code).toNat = operand.toNat <<< 3 ||| code.toNat := BitVec.toNat_append operand code
  rw [happend, ← Nat.shiftLeft_add_eq_or_of_lt code.isLt, Nat.shiftLeft_eq, Nat.mul_comm]

/-- The word with its operand bits cleared (R81). -/
theorem wordOf_zero_codeField (w : CmdWord) : wordOf 0 (codeField w) = BitVec.ofNat 19 (w.toNat % 8) := by
  have hzero : (0 : Soil).toNat = 0 := rfl
  apply BitVec.eq_of_toNat_eq
  rw [wordOf_toNat, codeField_toNat, hzero, BitVec.toNat_ofNat]
  omega

/-! ### A command is its code and its operand -/

/-- The opcode map undoes `Instr.code` and `Instr.operand` (R82). -/
theorem decodeFields_code_operand (i : Instr) : decodeFields i.code i.operand = i := by cases i <;> rfl

theorem eq_of_code_operand {i j : Instr} (hcode : i.code = j.code) (hoperand : i.operand = j.operand) : i = j := by
  rw [← decodeFields_code_operand i, hcode, hoperand, decodeFields_code_operand]

/-- Only ACT, code 5, keeps the operand bits (R81). -/
theorem operand_decodeFields (code : CmdCode) (operand : Soil) :
    (decodeFields code operand).operand = if code = 5 then operand else 0 := by
  obtain ⟨n, hn⟩ := code
  match n, hn with
  | 0, _ | 1, _ | 2, _ | 3, _ | 4, _ | 5, _ | 6, _ | 7, _ => rfl

theorem code_decodeWord (w : CmdWord) : (decodeWord w).code = codeField w := code_decodeFields _ _

theorem operand_decodeWord (w : CmdWord) :
    (decodeWord w).operand = if codeField w = 5 then operandField w else 0 := operand_decodeFields _ _

/-! ### Decoding and encoding undo each other -/

theorem decodeWord_encode (i : Instr) : decodeWord (encode i) = i :=
  (decodeWord_wordOf i.operand i.code).trans (decodeFields_code_operand i)

/-- A command word read as a number decodes as the word (R80). -/
theorem decode_toNat (w : CmdWord) : decode w.toNat = .ok (decodeWord w) := by
  have hfits : wordFits w.toNat = true := decide_eq_true w.isLt
  rw [decode, if_pos hfits, BitVec.ofNat_toNat, BitVec.setWidth_eq]

/-- A table row that has the 19 bits of a command word loses none of them. -/
theorem decodeTableWord_toNat (w : CmdWord) {nbits : Nat} (h : 19 ≤ nbits) :
    decodeTableWord nbits w.toNat = some (decodeWord w) := by
  have hfits : w.toNat < 2 ^ nbits := w.isLt.trans_le (Nat.pow_le_pow_right (by decide) h)
  rw [decodeTableWord, Nat.mod_eq_of_lt hfits, decode_toNat]

/-- Encoding a decoded word keeps its code, and its operand bits for code 5 (R81). -/
theorem encode_decodeWord (w : CmdWord) :
    encode (decodeWord w) = wordOf (if codeField w = 5 then operandField w else 0) (codeField w) := by
  rw [encode, operand_decodeWord, code_decodeWord]

/-- The codes agree and, for ACT, the operands (R81, R82). -/
theorem decodeWord_eq_iff (w v : CmdWord) :
    decodeWord w = decodeWord v ↔
      codeField w = codeField v ∧ (codeField w = 5 → operandField w = operandField v) := by
  constructor
  · intro h
    have hcode : codeField w = codeField v := by rw [← code_decodeWord, h, code_decodeWord]
    have hoperand := congrArg Instr.operand h
    rw [operand_decodeWord, operand_decodeWord, ← hcode] at hoperand
    exact ⟨hcode, fun h5 => by rwa [if_pos h5, if_pos h5] at hoperand⟩
  · rintro ⟨hcode, hoperand⟩
    apply eq_of_code_operand
    · rw [code_decodeWord, code_decodeWord, hcode]
    · rw [operand_decodeWord, operand_decodeWord, ← hcode]
      split
      · next h5 => exact hoperand h5
      · rfl

/-- Settles O2: all three readings of the canonical word are `decodeWord` of it, which gives the command back. -/
theorem decodeOfEncode : Obligations.DecodeOfEncode := by
  intro i _
  refine ⟨decodeWord_encode i, ?_, fun nbits hbits => ?_⟩
  · rw [decode_toNat, decodeWord_encode]
  · rw [decodeTableWord_toNat _ hbits, decodeWord_encode]

/-- Settles O3: with code 5 the two fields are put together again, with another code the code alone. -/
theorem encodeOfDecodeIsCanonical : Obligations.EncodeOfDecodeIsCanonical := by
  intro w
  rw [encode_decodeWord]
  by_cases h5 : codeField w = 5
  · rw [if_pos h5, if_pos ((codeField_eq_five_iff w).1 h5), wordOf_fields]
  · rw [if_neg h5, if_neg (mt (codeField_eq_five_iff w).2 h5), wordOf_zero_codeField]

/-- Settles O4: `decodeWord_eq_iff` in numbers. -/
theorem decodeReadsCodeAndSoilOnly : Obligations.DecodeReadsCodeAndSoilOnly := by
  intro w v
  rw [decodeWord_eq_iff, codeField_eq_five_iff, ← BitVec.toNat_inj, ← BitVec.toNat_inj, codeField_toNat,
    codeField_toNat, operandField_toNat, operandField_toNat]

/-- Settles O1: each of the eleven closed words is evaluated. -/
theorem commandWordsDecode : Obligations.CommandWordsDecode :=
  ⟨rfl, rfl, rfl, rfl, rfl, rfl, rfl, rfl, rfl, rfl, rfl⟩

/-! ### The width of a pulse -/

/-- Where a later tick of an operation finds the block. -/
theorem State.AtTick.runFor_eq {s : State} {n : Nat} {r : Regs} (h : s.AtTick n r) :
    ∃ t, runFor n s = .next t ∧ t.regs = r.setPrev (s.lineAt (n - 1)) := by
  obtain ⟨k, r₁, t, rfl, hstep, hrun, hregs⟩ := h
  exact ⟨t, (runFor_succ k hstep).trans hrun.run, hregs⟩

/-- The first tick of a busy block without reset (R186). -/
theorem State.AtTick.first {s : State} {r : Regs} (hc : s.cfg.ok = true) (hr : s.input.rst = false)
    (hp : s.regs.phase ≠ .idle) (heff : PhaseEffect s.cfg (s.lineAt 0) s.regs r) : s.AtTick 1 r := by
  have hstep := step_busy hc hr hp
  rw [lin_eq_lineAt, ← heff.eq_phaseTick] at hstep
  exact ⟨0, _, _, rfl, hstep, BusyRun.refl _, rfl⟩

/-- T_SAMPLE ticks after the tick of a rise the line is sampled, whatever it did in between (R125 to R127). -/
theorem sampled_after_rise {s : State} (hc : s.cfg.ok = true) (hp : s.regs.phase = .bitRise)
    (hrise : s.riseAt 0 = true) (hres : s.noReset (s.cfg.tSample + 1)) :
    s.AtTick (s.cfg.tSample + 1) (s.regs.sampled s.cfg (s.lineAt s.cfg.tSample)) := by
  obtain ⟨-, -, -, -, ⟨hsample, -⟩, -⟩ := (config_ok_iff _).1 hc
  have hdelay : s.AtTick 1 { s.regs with phase := .bitDelay, tmr := s.cfg.tSample - 1 } :=
    .first hc (noReset_head hres (Nat.succ_pos _)) (by simp [hp]) (.rises hp hrise)
  exact hdelay.timed rfl (by simp only; omega) hres (.samples rfl rfl)

/-- Settles O30: the sample reads tick T_SAMPLE of the pulse, which is high exactly when the pulse is longer. -/
theorem pulseWidthDecidesBit : Obligations.PulseWidthDecidesBit := by
  intro s w hc hp hrise hres _ hhigh hlow
  have hread : (s.lineAt s.cfg.tSample).toNat = if s.cfg.tSample + 1 ≤ w then 1 else 0 := by
    split
    · next hlong => rw [hhigh _ hlong, Bool.toNat_true]
    · next hshort => rw [hlow _ (by omega) (Nat.le_refl _), Bool.toNat_false]
  obtain ⟨t, hrun, hregs⟩ := (sampled_after_rise hc hp hrise hres).runFor_eq
  refine ⟨t, hrun, ?_, ?_, ?_⟩ <;> rw [hregs]
  · rfl
  · rw [← hread]
    exact shiftIn_toNat _ _
  · rfl

end Sys2Proof.Machine
end

section
/-! PROOFS. The family spec/40_dispatch.md: which command a tick runs (R110, R111, R116), what each command writes at its
acceptance (R113 to R115), and that a SAMPLE does not depend on what earlier operations left behind (R188). -/

namespace Sys2Proof.Machine

/-! ### Which command a tick runs -/

/-- Settles O5: the acceptance of `step_accept`, the presented word read as the command it spells. -/
theorem stepRunsPresentedCommand : Obligations.StepRunsPresentedCommand := by
  intro s i hc _ hr hp hv hword
  have hcommand : presentedCommand s.input = i := hword
  rw [step_accept hc hr hp hv, hcommand]

/-- What a tick reads after a word is presented: no reset, and the fields of the word. -/
theorem present_input (s : State) (cw : CmdWord) :
    (s.present cw).input.rst = false ∧ (s.present cw).input.cmdValid = true ∧
      (s.present cw).input.cmd = codeField cw ∧ (s.present cw).input.operand = operandField cw :=
  ⟨rfl, rfl, rfl, rfl⟩

/-- The ports spell the command of the word presented (R80, R110). -/
theorem presentedCommand_present (s : State) (cw : CmdWord) :
    presentedCommand (s.present cw).input = decodeWord cw := by
  obtain ⟨-, -, hcode, hoperand⟩ := present_input s cw
  rw [presentedCommand, presentedWord, hcode, hoperand, wordOf_fields]

/-- A table row that spells a command spells it by the 19-bit word of its bits. -/
theorem decodeWord_of_tableWord {nbits w : Nat} {i : Instr} (h : decodeTableWord nbits w = some i) :
    decodeWord (BitVec.ofNat 19 (w % 2 ^ nbits)) = i := by
  by_cases hfits : wordFits (w % 2 ^ nbits) = true
  · simpa [decodeTableWord, decode, hfits] using h
  · simp [decodeTableWord, decode, hfits] at h

/-- Settles O6: presenting makes the block idle and puts on the ports the word that the row spells. -/
theorem presentedTableWordIsRun : Obligations.PresentedTableWordIsRun := by
  intro s nbits w i hc hrow
  obtain ⟨hrst, hvalid, -⟩ := present_input s (BitVec.ofNat 19 (w % 2 ^ nbits))
  have hstep : step (s.withFetchWord nbits w) = exec i (s.withFetchWord nbits w) := by
    have haccept := step_accept (s := s.withFetchWord nbits w) hc hrst rfl hvalid
    rwa [State.withFetchWord, presentedCommand_present, decodeWord_of_tableWord hrow] at haccept
  exact ⟨hstep, present_regs _ _, present_cfg _ _, present_tick _ _⟩

/-- Settles O7: reset is looked at first, and its registers are the table of R43. -/
theorem resetWinsOverEverything : Obligations.ResetWinsOverEverything := by
  intro s hc hr
  rw [step_reset hc hr, resetTick_eq_nextTick]
  rfl

/-- A tick of a busy block with its inputs listed: of these it looks at `rst` and `line_in` alone (R111, R186). -/
theorem step_busy_listed {s : State} (hc : s.cfg.ok = true) (hbusy : s.regs.phase ≠ .idle) (inp : Inputs)
    (rest : List Inputs) :
    step { s with inputs := inp :: rest } =
      .next
        { s with
          regs := if inp.rst then Regs.reset else { s.regs.phaseTick s.cfg inp.line with prev := inp.line }
          inputs := rest
          tick := s.tick + 1 } := by
  cases hr : inp.rst
  case true => exact step_reset (s := { s with inputs := inp :: rest }) hc hr
  case false => exact step_busy (s := { s with inputs := inp :: rest }) hc hr hbusy

/-- Settles O8: an illegal configuration is refused whatever the inputs, and a legal one ticks by `step_busy_listed`. -/
theorem busyIgnoresCommandPort : Obligations.BusyIgnoresCommandPort := by
  intro s a b rest hbusy hrst hline
  cases hc : s.cfg.ok
  case false =>
    have hrefused (inp : Inputs) : step { s with inputs := inp :: rest } = .refused .illegalConfiguration :=
      step_refused hc
    rw [hrefused, hrefused]
  case true => rw [step_busy_listed hc hbusy, step_busy_listed hc hbusy, hrst, hline]

/-! ### The commands at the tick of acceptance

`exec_eq` gives the registers of every command as `acceptRegs`; each statement is one row of it. -/

/-- Settles O12: the rows of NOP and of the reserved codes, which write no register. -/
theorem nopAndReservedWritePrevOnly : Obligations.NopAndReservedWritePrevOnly :=
  fun s => ⟨exec_eq .nop s, exec_eq .rsv6 s, exec_eq .rsv7 s⟩

/-- Settles O13: the row of START. -/
theorem startBeginsStartSignal : Obligations.StartBeginsStartSignal := exec_eq .start

/-- Settles O14: the row of CHECK. -/
theorem checkBeginsGuardDelay : Obligations.CheckBeginsGuardDelay := exec_eq .check

/-- Settles O15: the row of RDBYTE, WLOAD by its definition. -/
theorem rdbyteBeginsRiseWait : Obligations.RdbyteBeginsRiseWait := exec_eq .rdbyte

/-- Settles O16: the row of SAMPLE. -/
theorem sampleBeginsStartSignal : Obligations.SampleBeginsStartSignal := exec_eq .sample

/-! ### Two SAMPLEs on the same inputs

SAMPLE loads or clears what it reads, except the four registers that hold the bits and bytes of a frame: BITCNT, SHREG,
H_STG and T_STG. Each of these is read only where the frame has written it: the relation below says how far it has. -/

/-- The registers with other contents of the four that hold a frame under way. -/
def Regs.withFrameData (r : Regs) (bitcnt : BitVec 3) (shreg hStg tStg : Byte) : Regs :=
  { r with bitcnt := bitcnt, shreg := shreg, hStg := hStg, tStg := tStg }

/-- The phases in which the bits of a frame are read (R125 to R128). -/
def Phase.readsBits (p : Phase) : Bool :=
  match p with
  | .idle => false
  | .startLow => false
  | .startHigh => false
  | .respGuard => false
  | .respWait => false
  | .bitRise => true
  | .bitDelay => true
  | .bitFall => true

/-- The bits of the current byte that SHREG holds: the slots completed, and after its sample the current one. -/
def Regs.bitsShifted (r : Regs) : Nat := r.bitcnt.toNat + if r.phase = .bitFall then 1 else 0

/-- What the frame under way has written is the same: the bits of the current byte, and the staged bytes. -/
def Regs.SameFrame (r r' : Regs) : Prop :=
  r'.bitcnt = r.bitcnt ∧ (∀ i, i < r.bitsShifted → r'.shreg.getLsbD i = r.shreg.getLsbD i) ∧
    (1 ≤ r.bytecnt.toNat → r'.hStg = r.hStg) ∧ (3 ≤ r.bytecnt.toNat → r'.tStg = r.tStg)

/-- The registers of two SAMPLEs at the same tick: equal but for the four that hold the frame, and these agree as far as
the frame under way has written them. -/
structure Regs.SameSample (r r' : Regs) : Prop where
  alike : ∃ bitcnt shreg hStg tStg, r' = r.withFrameData bitcnt shreg hStg tStg
  frame : r.phase.readsBits = true → r.SameFrame r'

/-- Before and after the frame nothing is asked of the four registers. -/
theorem Regs.SameSample.outside {r : Regs} (hp : r.phase.readsBits = false) (bitcnt : BitVec 3)
    (shreg hStg tStg : Byte) : r.SameSample (r.withFrameData bitcnt shreg hStg tStg) :=
  ⟨⟨bitcnt, shreg, hStg, tStg, rfl⟩, fun hf => absurd hf (by simp [hp])⟩

theorem Regs.SameSample.setPrev {r r' : Regs} (h : r.SameSample r') (b : Bool) :
    (r.setPrev b).SameSample (r'.setPrev b) := by
  obtain ⟨⟨n, x, y, z, rfl⟩, hframe⟩ := h
  exact ⟨⟨n, x, y, z, rfl⟩, hframe⟩

/-- The bits of SHREG after a shift: the new one lowest, the others one up (R23). -/
theorem shiftIn_getLsbD_congr {b b' : Byte} {n : Nat} (lin : Bool)
    (h : ∀ i, i < n → b'.getLsbD i = b.getLsbD i) :
    ∀ i, i < n + 1 → (shiftIn b' lin).getLsbD i = (shiftIn b lin).getLsbD i := by
  intro i hi
  cases i with
  | zero => simp [shiftIn]
  | succ i => simp [shiftIn, h i (by omega)]

/-- After the eighth sample the whole byte is of this frame. -/
theorem Regs.SameFrame.shreg_eq {r r' : Regs} (h : r.SameFrame r') (hp : r.phase = .bitFall) (hb : r.bitcnt = 7) :
    r'.shreg = r.shreg := by
  obtain ⟨-, hbits, -⟩ := h
  refine BitVec.eq_of_getLsbD_eq fun i hi => hbits i ?_
  simpa [Regs.bitsShifted, hp, hb] using hi

/-- A phase rule keeps two SAMPLEs the same: the sample gives both the same new bit, a byte is staged when all its bits
are of this frame, and the commit reads bytes that this frame staged (R127, R129, R130). -/
theorem PhaseEffect.sameSample {c : Config} {lin : Bool} {r₀ r r' r₁ : Regs} (h : PhaseEffect c lin r r₁)
    (hs : Regs.InSample r₀ r) (ha : r.SameSample r') :
    ∃ r₁', PhaseEffect c lin r' r₁' ∧ r₁.SameSample r₁' := by
  have hbytes : sampleBytesOk r.phase r.bytecnt = true := hs.bytes.2 hs.seq
  obtain ⟨⟨n, x, y, z, rfl⟩, hframe⟩ := ha
  cases h with
  | rest hp => exact ⟨_, .rest hp, ⟨n, x, y, z, rfl⟩, hframe⟩
  | count hp ht => exact ⟨_, .count hp ht, ⟨n, x, y, z, rfl⟩, hframe⟩
  | waitCounts hw hpos ht => exact ⟨_, .waitCounts hw hpos ht, ⟨n, x, y, z, rfl⟩, hframe⟩
  | waitHangs hw hzero => exact ⟨_, .waitHangs hw hzero, ⟨n, x, y, z, rfl⟩, hframe⟩
  | lowEnds hp ht => exact ⟨_, .lowEnds hp ht, .outside rfl n x y z⟩
  | highGoesOn hp ht hq => exact ⟨_, .highGoesOn hp ht hq, .outside rfl n x y z⟩
  | highEnds hp ht hq => exact ⟨_, .highEnds hp ht hq, .outside rfl n x y z⟩
  | firstSampleFails hp ht hl => exact ⟨_, .firstSampleFails hp ht hl, .outside rfl n x y z⟩
  | firstSamplePasses hp ht hl => exact ⟨_, .firstSamplePasses hp ht hl, .outside rfl n x y z⟩
  | secondSampleFails hp ht hl => exact ⟨_, .secondSampleFails hp ht hl, .outside rfl n x y z⟩
  | responseEnds hp ht hl hq => exact ⟨_, .responseEnds hp ht hl hq, .outside rfl n x y z⟩
  | timesOut hw hpos ht => exact ⟨_, .timesOut hw hpos ht, .outside rfl n x y z⟩
  | responseGoesOn hp ht hl hq =>
    have hzero : r.bytecnt = 0 := by simpa [hp, sampleBytesOk] using hbytes
    refine ⟨_, .responseGoesOn hp ht hl hq, ⟨0, x, y, z, rfl⟩, fun _ => ⟨rfl, ?_, ?_, ?_⟩⟩
    · simp [Regs.bitsShifted]
    · simp [hzero]
    · simp [hzero]
  | rises hp hr =>
    obtain ⟨hn, hbits, hstaged⟩ := hframe (by rw [hp]; rfl)
    refine ⟨_, .rises hp hr, ⟨n, x, y, z, rfl⟩, fun _ => ⟨hn, ?_, hstaged⟩⟩
    simpa [Regs.bitsShifted, hp] using hbits
  | samples hp ht =>
    obtain ⟨hn, hbits, hstaged⟩ := hframe (by rw [hp]; rfl)
    refine ⟨_, .samples hp ht, ⟨n, _, y, z, rfl⟩, fun _ => ⟨hn, shiftIn_getLsbD_congr lin ?_, hstaged⟩⟩
    simpa [Regs.bitsShifted, hp] using hbits
  | slotEnds hp hl hb =>
    obtain ⟨hn, hbits, hstaged⟩ := hframe (by rw [hp]; rfl)
    obtain rfl : n = r.bitcnt := hn
    have hnext : (r.bitcnt + 1#3).toNat = r.bitcnt.toNat + 1 := by bv_omega
    refine ⟨_, .slotEnds hp hl hb, ⟨_, x, y, z, rfl⟩, fun _ => ⟨rfl, ?_, hstaged⟩⟩
    simpa [Regs.bitsShifted, hp, hnext, -BitVec.toNat_add] using hbits
  | byteEnds hp hl hb hq =>
    obtain ⟨hn, -⟩ := hframe (by rw [hp]; rfl)
    exact ⟨_, .byteEnds hp hl (hn.trans hb) hq, .outside rfl 0 x y z⟩
  | commits hp hl hb hq hy =>
    obtain ⟨hn, -, hhum, htemp⟩ := hframe (by rw [hp]; rfl)
    obtain rfl : y = r.hStg := hhum (by simp [hy])
    obtain rfl : z = r.tStg := htemp (by simp [hy])
    exact ⟨_, .commits hp hl (hn.trans hb) hq hy, .outside rfl 0 x _ _⟩
  | nextByte hp hl hb hq hy =>
    have hsame := hframe (by rw [hp]; rfl)
    obtain rfl : x = r.shreg := hsame.shreg_eq hp hb
    obtain ⟨hn, -, hhum, htemp⟩ := hsame
    have hle : r.bytecnt.toNat ≤ 4 := by simpa [hp, sampleBytesOk] using hbytes
    refine ⟨_, .nextByte hp hl (hn.trans hb) hq hy, ⟨0, _, _, _, rfl⟩, fun _ => ⟨rfl, ?_, fun _ => ?_, fun h3 => ?_⟩⟩
    · simp [Regs.bitsShifted]
    · by_cases h0 : r.bytecnt = 0
      · simp [Regs.withFrameData, h0]
      · have hfirst : y = r.hStg := hhum (by bv_omega)
        simp [Regs.withFrameData, hfirst]
    · by_cases h2 : r.bytecnt = 2
      · simp [Regs.withFrameData, h2]
      · have hthird : z = r.tStg := htemp (by simp only at h3; bv_omega)
        simp [Regs.withFrameData, hthird]

/-- One tick of two SAMPLEs: a reset makes them equal, else the same phase rule fires in both. -/
theorem step_sameSample {s : State} {r₀ r' : Regs} (hc : s.cfg.ok = true) (hs : Regs.InSample r₀ s.regs)
    (ha : s.regs.SameSample r') :
    ∃ r₁ r₁', step s = .next (s.nextTick r₁) ∧ step { s with regs := r' } = .next (s.nextTick r₁') ∧
      r₁.SameSample r₁' ∧ (r₁.phase ≠ .idle → Regs.InSample r₀ r₁) := by
  have hbusy' : r'.phase ≠ .idle := by
    obtain ⟨⟨_, _, _, _, rfl⟩, -⟩ := ha
    exact hs.busy
  cases hr : s.input.rst
  case true =>
    exact ⟨_, _, step_reset hc hr, step_reset (s := { s with regs := r' }) hc hr, .outside rfl 0 0 0 0,
      fun hbusy => absurd rfl hbusy⟩
  case false =>
    have heff := phaseTick_effect s.cfg s.lin s.regs
    obtain ⟨r₁', heff', hsame⟩ := heff.sameSample hs ha
    rw [heff'.eq_phaseTick] at hsame
    refine ⟨_, _, step_busy hc hr hs.busy, step_busy (s := { s with regs := r' }) hc hr hbusy', hsame.setPrev s.lin,
      fun hbusy => ?_⟩
    rcases heff.inSample_or_ended hs with hend | hgoes
    · exact absurd hend.idle hbusy
    · exact hgoes.setPrev s.lin

/-- Two SAMPLEs that begin the same stay the same while the first is busy, and at the tick it ends. -/
theorem runFor_sameSample {s : State} {r₀ r' : Regs} (hc : s.cfg.ok = true) (hs : Regs.InSample r₀ s.regs)
    (ha : s.regs.SameSample r') (k : Nat)
    (hbusy : ∀ j, j < k → ∃ t, runFor j s = .next t ∧ t.regs.phase ≠ .idle) :
    ∃ t r₁', runFor k s = .next t ∧ runFor k { s with regs := r' } = .next { t with regs := r₁' } ∧
      t.cfg = s.cfg ∧ t.regs.SameSample r₁' ∧ (t.regs.phase ≠ .idle → Regs.InSample r₀ t.regs) := by
  induction k with
  | zero => exact ⟨s, r', rfl, rfl, rfl, ha, fun _ => hs⟩
  | succ k ih =>
    obtain ⟨t, r₁', hrun, hrun', hcfg, hsame, hin⟩ := ih fun j hj => hbusy j (by omega)
    obtain ⟨t₁, hrun₁, hbusy₁⟩ := hbusy k (by omega)
    obtain rfl : t = t₁ := by simpa [hrun] using hrun₁
    obtain ⟨r₂, r₂', hstep, hstep', hsame₂, hin₂⟩ := step_sameSample (hcfg ▸ hc) (hin hbusy₁) hsame
    refine ⟨t.nextTick r₂, r₂', ?_, ?_, hcfg, hsame₂, hin₂⟩
    · rw [runFor_add 1 hrun, runFor_succ 0 hstep, runFor_zero]
    · rw [runFor_add 1 hrun', runFor_succ 0 hstep', runFor_zero]
      rfl

/-- The registers after the acceptance of a SAMPLE are registers during it (R115). -/
theorem inSample_accept (c : Config) (r : Regs) (b : Bool) : Regs.InSample r ((acceptRegs c r .sample).setPrev b) :=
  ⟨Phase.noConfusion, rfl, ⟨Nat.zero_le 5, fun _ => rfl⟩, rfl, rfl, rfl⟩

/-- SAMPLE loads or clears SEQ, PHASE, TMR, BYTECNT and TMO, and every tick writes PREV (R39, R115). -/
theorem acceptRegs_sample_sameSample {r r' : Regs} (c : Config) (b : Bool) (hhum : r'.hum = r.hum)
    (htemp : r'.temp = r.temp) (hvalid : r'.valid = r.valid) (hresp : r'.respOk = r.respOk) (hout : r'.out = r.out) :
    ((acceptRegs c r .sample).setPrev b).SameSample ((acceptRegs c r' .sample).setPrev b) := by
  have halike : (acceptRegs c r' .sample).setPrev b =
      ((acceptRegs c r .sample).setPrev b).withFrameData r'.bitcnt r'.shreg r'.hStg r'.tStg := by
    simp [acceptRegs, Regs.setPrev, Regs.withFrameData, hhum, htemp, hvalid, hresp, hout]
  rw [halike]
  exact .outside rfl _ _ _ _

/-- Settles O39: both blocks accept, and from the next tick on the two SAMPLEs stay the same (`runFor_sameSample`). -/
theorem sampleLeavesNoResidue : Obligations.SampleLeavesNoResidue := by
  intro s s' k hacc hidle hcfg hinputs htick hhum htemp hvalid hresp hout hk hbusy
  obtain ⟨k, rfl⟩ : ∃ m, k = m + 1 := ⟨k - 1, by omega⟩
  obtain ⟨r', rfl⟩ : ∃ r', s' = { s with regs := r' } := ⟨s'.regs, by rw [← hcfg, ← hinputs, ← htick]⟩
  have hacc' : State.Accepts { s with regs := r' } .sample :=
    ⟨hacc.legal, hacc.running, hidle, hacc.presented, hacc.word⟩
  have hstep := accept_step hacc
  have hstep' := accept_step hacc'
  obtain ⟨t, r₁', hrun, hrun', -, ⟨⟨_, _, _, _, rfl⟩, -⟩, -⟩ :=
    runFor_sameSample (s := s.nextTick _) hacc.legal (inSample_accept s.cfg s.regs (s.lineAt 0))
      (acceptRegs_sample_sameSample s.cfg (s.lineAt 0) hhum htemp hvalid hresp hout) k fun j hj => by
        obtain ⟨u, hu, hp⟩ := hbusy (j + 1) (by omega) (by omega)
        exact ⟨u, (runFor_succ j hstep).symm.trans hu, hp⟩
  exact ⟨t, _, (runFor_succ k hstep).trans hrun, (runFor_succ k hstep').trans hrun', rfl, rfl, rfl, rfl, rfl, rfl, rfl,
    rfl⟩

end Sys2Proof.Machine
end

section
/-! PROOFS. The family spec/41_sensorlink.md: what a tick of each phase writes (R120 to R133), how START, CHECK, a SAMPLE
without a response and a RDBYTE with bounded waits end (R135 to R138, R142), and that an unbounded wait may last for
ever (R182). -/

namespace Sys2Proof.Machine

/-! ### One tick of a phase -/

/-- A busy block's tick without reset by the case of its phase rule, the line level being `lin` (R39, R186). -/
theorem step_of_effect {s : State} {lin : Bool} {r : Regs} (hc : s.cfg.ok = true) (hr : s.input.rst = false)
    (hbusy : s.regs.phase ≠ .idle) (hl : s.lineAt 0 = lin) (heff : PhaseEffect s.cfg lin s.regs r) :
    step s = .next (s.nextTick { r with prev := lin }) := by
  subst hl
  rw [step_busy hc hr hbusy, heff.eq_phaseTick]
  rfl

/-- Settles O9: the phase rule of IDLE writes nothing (`PhaseEffect.rest`). -/
theorem idleWritesPrevOnly : Obligations.IdleWritesPrevOnly := by
  intro s hc hr hp hv
  have hkept : s.regs = s.regs.phaseTick s.cfg s.lin := (PhaseEffect.rest hp).eq_phaseTick
  rw [step_phase hc hr (.inr hv), State.phaseStep, ← hkept]
  rfl

/-- Settles O21: the end actions of the two driving phases, the second by SEQ. -/
theorem startPhasesEnd : Obligations.StartPhasesEnd := by
  intro s hc hr ht
  refine ⟨fun hp => ?_, fun hp hq => ?_, fun hp hq => ?_⟩
  · exact step_of_effect hc hr (hp.trans_ne Phase.noConfusion) rfl (.lowEnds hp ht)
  · exact step_of_effect hc hr (hp.trans_ne Phase.noConfusion) rfl (.highGoesOn hp ht hq)
  · exact step_of_effect hc hr (hp.trans_ne Phase.noConfusion) rfl (.highEnds hp ht hq)

/-- Settles O22: the first sample that reads 0, and the second that reads 1, by SEQ. -/
theorem responseSamplesPass : Obligations.ResponseSamplesPass := by
  intro s hc hr ht
  refine ⟨fun hp hl => ?_, fun hp hl hq => ?_, fun hp hl hq => ?_⟩
  · exact step_of_effect hc hr (hp.trans_ne Phase.noConfusion) hl (.firstSamplePasses hp ht rfl)
  · exact step_of_effect hc hr (hp.trans_ne Phase.noConfusion) hl (.responseGoesOn hp ht rfl hq)
  · exact step_of_effect hc hr (hp.trans_ne Phase.noConfusion) hl (.responseEnds hp ht rfl hq)

/-- Settles O23: both failing samples have the one effect of `handshakeFailsNow_effect`. -/
theorem handshakeFailWrites : Obligations.HandshakeFailWrites := by
  intro s hc hr ht hfail
  have hbusy : s.regs.phase ≠ .idle := by
    obtain ⟨hp, -⟩ | ⟨hp, -⟩ := hfail <;> exact hp.trans_ne Phase.noConfusion
  exact step_of_effect hc hr hbusy rfl (handshakeFailsNow_effect ⟨ht, hfail⟩)

/-- R126 spelled out. -/
theorem rise_iff (mode : RiseMode) (prev lin : Bool) :
    rise mode prev lin = true ↔ lin = true ∧ (mode = .level ∨ prev = false) := by
  cases mode <;> simp [rise]

/-- Settles O24: the rise by `rise_iff`, and without it the two ways a wait goes on. -/
theorem bitRiseWaitsForRise : Obligations.BitRiseWaitsForRise := by
  intro s hc hr hp
  have hbusy : s.regs.phase ≠ .idle := hp.trans_ne Phase.noConfusion
  rw [← rise_iff]
  refine ⟨fun hrise => ?_, fun hnone => ?_⟩
  · obtain ⟨hl, -⟩ := (rise_iff _ _ _).1 hrise
    exact step_of_effect hc hr hbusy hl (.rises hp (hl ▸ hrise))
  · have hwaits : s.regs.stillWaits s.cfg (s.lineAt 0) := .inl ⟨hp, Bool.eq_false_iff.2 hnone⟩
    exact ⟨fun hw ht => step_of_effect hc hr hbusy rfl (.waitCounts hwaits hw ht),
      fun hw => step_of_effect hc hr hbusy rfl (.waitHangs hwaits hw)⟩

/-- Settles O25: the new byte is `shiftIn`, whose number is `shiftIn_toNat`. -/
theorem bitDelaySamples : Obligations.BitDelaySamples := by
  intro s hc hr hp ht
  exact ⟨shiftIn s.regs.shreg (s.lineAt 0), shiftIn_toNat _ _,
    step_of_effect hc hr (hp.trans_ne Phase.noConfusion) rfl (.samples hp ht)⟩

/-- Settles O26: a low level ends the slot, a high one lets the wait go on. -/
theorem bitFallWaitsForLow : Obligations.BitFallWaitsForLow := by
  intro s hc hr hp
  have hbusy : s.regs.phase ≠ .idle := hp.trans_ne Phase.noConfusion
  have hwaits : s.regs.stillWaits s.cfg true := .inr ⟨hp, rfl⟩
  refine ⟨fun hl hb => ?_, fun hl hw ht => ?_, fun hl hw => ?_⟩
  · exact step_of_effect hc hr hbusy hl (.slotEnds hp rfl hb)
  · exact step_of_effect hc hr hbusy hl (.waitCounts hwaits hw ht)
  · exact step_of_effect hc hr hbusy hl (.waitHangs hwaits hw)

/-- Settles O27: the end of a byte by SEQ, the commit aside. -/
theorem endOfByteStagesOrEnds : Obligations.EndOfByteStagesOrEnds := by
  intro s hc hr hp hl hb
  have hbusy : s.regs.phase ≠ .idle := hp.trans_ne Phase.noConfusion
  refine ⟨fun hq => ?_, fun hq hy => ?_⟩
  · exact step_of_effect hc hr hbusy hl (.byteEnds hp rfl hb hq)
  · exact step_of_effect hc hr hbusy hl (.nextByte hp rfl hb hq hy)

/-- Settles O28: the end of the fifth byte of a SAMPLE. -/
theorem commitWritesReading : Obligations.CommitWritesReading := by
  rintro s hc hr ⟨hp, hl, hb, hq, hy⟩
  exact step_of_effect hc hr (hp.trans_ne Phase.noConfusion) hl (.commits hp rfl hb hq hy)

/-- A waiting block is busy. -/
theorem Regs.stillWaits.busy {c : Config} {lin : Bool} {r : Regs} (h : r.stillWaits c lin) : r.phase ≠ .idle := by
  obtain ⟨hp, -⟩ | ⟨hp, -⟩ := h <;> exact hp.trans_ne Phase.noConfusion

/-- Settles O29: a timeout in either wait has the one effect of `timesOutNow_effect`. -/
theorem waitTimeoutWrites : Obligations.WaitTimeoutWrites := by
  intro s hc hr hout
  obtain ⟨-, -, hwaits⟩ := (timesOutNow_iff s).1 hout
  exact step_of_effect hc hr hwaits.busy rfl (timesOutNow_effect hout)

/-! ### Many ticks of one phase -/

/-- A run takes one tick of input a tick and writes no parameter (R12, R16). -/
theorem runFor_environment {s t : State} {k : Nat} (h : runFor k s = .next t) :
    t.cfg = s.cfg ∧ t.inputs = s.inputs.drop k ∧ t.tick = s.tick + k := by
  induction k generalizing s with
  | zero =>
    obtain rfl : s = t := by simpa using h
    exact ⟨rfl, rfl, rfl⟩
  | succ k ih =>
    cases hstep : step s with
    | next u =>
      obtain ⟨-, r, rfl, -⟩ := tick_cases hstep
      obtain ⟨hcfg, hinputs, htick⟩ := ih ((runFor_succ k hstep).symm.trans h)
      refine ⟨hcfg, ?_, ?_⟩
      · rw [hinputs, nextTick_inputs, List.drop_tail]
      · rw [htick, nextTick_tick, Nat.add_assoc, Nat.add_comm 1]
    | fault e => cases e
    | refused e => simp [runFor, hstep] at h

/-- A timed phase is not a phase of another kind, IDLE and the two waits among them. -/
theorem Phase.ne_of_timed {p q : Phase} (hp : p.timed = true) (hq : q.timed = false) : p ≠ q := by
  rintro rfl
  exact Bool.noConfusion (hp.symm.trans hq)

/-- A timed phase before its end action: TMR counts down, and nothing else happens (R120). -/
theorem State.AtTick.counts {s : State} {n k : Nat} {r : Regs} (h : s.AtTick n r) (hp : r.phase.timed = true)
    (hk : k ≤ r.tmr) (hres : s.noReset (n + k)) : s.AtTick (n + k) { r with tmr := r.tmr - k } := by
  induction k with
  | zero => exact h
  | succ k ih =>
    have hthere := ih (by omega) (noReset_mono hres (by omega))
    have hpos : r.tmr - k ≠ 0 := by omega
    exact hthere.tick_of_ne_bitRise (hres _ (by omega)) (Phase.ne_of_timed hp rfl) (Phase.ne_of_timed hp rfl)
      (.count hp hpos)

/-- Settles O20: after the first tick, `State.AtTick.counts`. -/
theorem timedPhaseCountsDown : Obligations.TimedPhaseCountsDown := by
  intro s k hc hphase hk hres
  have hp : s.regs.phase.timed = true := by
    obtain hp | hp | hp | hp | hp := hphase <;> rw [hp] <;> rfl
  cases k with
  | zero => exact ⟨s, rfl, rfl, rfl, rfl, rfl⟩
  | succ k =>
    have hfirst : s.AtTick 1 { s.regs with tmr := s.regs.tmr - 1 } :=
      .first hc (noReset_head hres k.succ_pos) (Phase.ne_of_timed hp rfl) (.count hp (by omega))
    have hcounts := hfirst.counts (k := k) hp (by simp only; omega) (noReset_mono hres (by omega))
    rw [Nat.add_comm 1] at hcounts
    obtain ⟨t, hrun, hregs⟩ := hcounts.runFor_eq
    obtain ⟨hcfg, hinputs, htick⟩ := runFor_environment hrun
    refine ⟨t, hrun, hcfg, hinputs, htick, hregs.trans ?_⟩
    rw [Nat.sub_sub, Nat.add_comm 1]
    rfl

/-- Settles O38: after the first tick, `State.AtTick.wait`. -/
theorem waitsHangWithoutTimeout : Obligations.WaitsHangWithoutTimeout := by
  intro s n hc hw hres hnever
  have hwaits : ∀ j, j < n →
      (s.regs.setPrev (if j = 0 then s.regs.prev else s.lineAt (j - 1))).stillWaits s.cfg (s.lineAt j) := by
    obtain ⟨hp, hno⟩ | ⟨hp, hhigh⟩ := hnever
    · exact fun j hj => .inl ⟨hp, hno j hj⟩
    · exact fun j hj => .inr ⟨hp, hhigh j hj⟩
  cases n with
  | zero => exact ⟨s, rfl, rfl⟩
  | succ n =>
    have hnow : s.regs.stillWaits s.cfg (s.lineAt 0) := hwaits 0 n.succ_pos
    have hfirst : s.AtTick 1 s.regs :=
      .first hc (noReset_head hres n.succ_pos) hnow.busy (.waitHangs hnow hw)
    have hthere : s.AtTick (1 + n) s.regs := hfirst.wait hw (noReset_mono hres (by omega)) fun j h1 h2 => by
      have hlater := hwaits j (by omega)
      rwa [if_neg (by omega)] at hlater
    rw [Nat.add_comm] at hthere
    exact hthere.runFor_eq

/-! ### START, CHECK, and SAMPLE up to its response check -/

/-- The end of an operation, the line level of its last tick known (R39, R227). -/
theorem State.AtTick.endsAt_of_level {s : State} {n : Nat} {r : Regs} {lin : Bool} (h : s.AtTick (n + 1) r)
    (hl : s.lineAt n = lin) (hi : r.phase = .idle) : s.EndsAt (n + 1) (r.setPrev lin) := by
  subst hl
  exact h.endsAt hi

/-- What a later tick of an operation drives on the line (R21). -/
theorem State.AtTick.drives {s : State} {n : Nat} {r : Regs} (h : s.AtTick n r) :
    ∃ t, runFor n s = .next t ∧ t.regs.outputs.lineOe = r.lineOe ∧ t.regs.outputs.lineOut = r.lineOut := by
  obtain ⟨t, hrun, hregs⟩ := h.runFor_eq
  exact ⟨t, hrun, by rw [hregs]; rfl, by rw [hregs]; rfl⟩

/-- START_LOW, entered at the acceptance, ends after T_START_LOW ticks (R121). -/
theorem State.AtTick.startLow_ends {s : State} {r : Regs} (h : s.AtTick 1 r) (hp : r.phase = .startLow)
    (ht : r.tmr = s.cfg.tStartLow - 1) (hres : s.noReset (s.cfg.tStartLow + 1)) :
    s.AtTick (s.cfg.tStartLow + 1) { r with phase := .startHigh, tmr := s.cfg.tStartHigh - 1 } := by
  obtain ⟨⟨hlow, -⟩, -⟩ := (config_ok_iff _).1 h.legal
  exact h.timed (by rw [hp]; rfl) (by omega) hres (.lowEnds hp rfl)

/-- Settles O31: START_LOW and START_HIGH count down (`State.AtTick.counts`) and end (`State.AtTick.timed`). -/
theorem startDrivesThenReleases : Obligations.StartDrivesThenReleases := by
  intro s hacc hres
  obtain ⟨-, ⟨hhigh, -⟩, -⟩ := (config_ok_iff _).1 hacc.legal
  have hdriveLow : s.AtTick 1 (acceptRegs s.cfg s.regs .start) := .accept hacc
  have hdriveHigh := hdriveLow.startLow_ends rfl rfl (noReset_mono hres (by omega))
  refine ⟨fun k h1 h2 => ?_, fun k h1 h2 => ?_, ?_⟩
  · obtain ⟨j, rfl⟩ := Nat.exists_eq_add_of_le h1
    exact (hdriveLow.counts rfl (by simp only [acceptRegs]; omega) (noReset_mono hres (by omega))).drives
  · obtain ⟨j, rfl⟩ := Nat.exists_eq_add_of_le h1
    exact (hdriveHigh.counts rfl (by simp only; omega) (noReset_mono hres (by omega))).drives
  · exact (hdriveHigh.timed (m := s.cfg.tStartLow + s.cfg.tStartHigh) rfl (by simp only; omega) hres
      (.highEnds rfl rfl rfl)).endsAt rfl

/-- Settles O32: the guard delay and its sample, then the response delay and its sample. -/
theorem checkReportsTwoSamples : Obligations.CheckReportsTwoSamples := by
  intro s hacc hres
  obtain ⟨-, -, -, ⟨hresp, -⟩, -⟩ := (config_ok_iff _).1 hacc.legal
  have hguard : s.AtTick 1 (acceptRegs s.cfg s.regs .check) := .accept hacc
  have hsample : 1 + s.cfg.tGuard = s.cfg.tGuard + 1 := Nat.add_comm _ _
  refine ⟨fun hfirst => ?_, fun hfirst => ?_⟩
  · exact (hguard.timed rfl hsample (noReset_mono hres (by omega))
      (.firstSampleFails rfl rfl hfirst)).endsAt_of_level hfirst rfl
  · have hwait := hguard.timed rfl hsample (noReset_mono hres (by omega)) (.firstSamplePasses rfl rfl hfirst)
    have hsample' : s.cfg.tGuard + 1 + 1 + (s.cfg.tResp - 1) = s.cfg.tGuard + s.cfg.tResp + 1 := by omega
    cases hsecond : s.lineAt (s.cfg.tGuard + s.cfg.tResp + 1)
    · exact (hwait.timed rfl hsample' hres (.secondSampleFails rfl rfl hsecond)).endsAt_of_level hsecond rfl
    · exact (hwait.timed rfl hsample' hres (.responseEnds rfl rfl hsecond rfl)).endsAt_of_level hsecond rfl

/-- The start signal of a SAMPLE: two timed phases, then the guard delay begins (R121, R122, R138). -/
theorem State.Accepts.guarding {s : State} {g : Nat} (hacc : s.Accepts .sample)
    (hg : g = s.cfg.tStartLow + s.cfg.tStartHigh + 1) (hres : s.noReset g) :
    s.AtTick g { acceptRegs s.cfg s.regs .sample with phase := .respGuard, tmr := s.cfg.tGuard } := by
  subst hg
  obtain ⟨-, ⟨hhigh, -⟩, -⟩ := (config_ok_iff _).1 hacc.legal
  have hdriveLow : s.AtTick 1 (acceptRegs s.cfg s.regs .sample) := .accept hacc
  have hdriveHigh := hdriveLow.startLow_ends rfl rfl (noReset_mono hres (by omega))
  exact hdriveHigh.timed rfl (by simp only; omega) hres (.highGoesOn rfl rfl rfl)

/-- Settles O35: after the start signal, the first sample fails, or it passes and the second fails. -/
theorem sampleWithoutResponseHoldsReading : Obligations.SampleWithoutResponseHoldsReading := by
  intro s g hacc hg hres
  obtain ⟨-, -, -, ⟨hresp, -⟩, -⟩ := (config_ok_iff _).1 hacc.legal
  have hguard := hacc.guarding hg (noReset_mono hres (by omega))
  refine ⟨fun hfirst => ?_, fun hfirst hsecond => ?_⟩
  · exact (hguard.timed (m := g + s.cfg.tGuard) rfl rfl (noReset_mono hres (by omega))
      (.firstSampleFails rfl rfl hfirst)).endsAt_of_level hfirst rfl
  · have hwait := hguard.timed (m := g + s.cfg.tGuard) rfl rfl (noReset_mono hres (by omega))
      (.firstSamplePasses rfl rfl hfirst)
    exact (hwait.timed rfl (by simp only; omega) hres
      (.secondSampleFails rfl rfl hsecond)).endsAt_of_level hsecond rfl

/-! ### RDBYTE with bounded waits -/

/-- The registers of the reading and of the actuators, which RDBYTE does not write, are those of `r₀` (R137). -/
structure Regs.KeepsReading (r₀ r : Regs) : Prop where
  hum : r.hum = r₀.hum
  temp : r.temp = r₀.temp
  valid : r.valid = r₀.valid
  out : r.out = r₀.out

/-- The registers `r` during a RDBYTE that began with the registers `r₀`. -/
structure Regs.InRdbyte (r₀ r : Regs) : Prop where
  reads : r.phase.readsBits = true
  seq : r.seq = false
  kept : Regs.KeepsReading r₀ r

/-- The registers `r` at the end of a RDBYTE that began with the registers `r₀` (R129, R132). -/
structure Regs.RdbyteEnded (r₀ r : Regs) : Prop where
  idle : r.phase = .idle
  kept : Regs.KeepsReading r₀ r

theorem Regs.InRdbyte.busy {r₀ r : Regs} (h : Regs.InRdbyte r₀ r) : r.phase ≠ .idle := by
  intro hi
  have hreads := h.reads
  simp [hi, Phase.readsBits] at hreads

theorem Regs.InRdbyte.setPrev {r₀ r : Regs} (h : Regs.InRdbyte r₀ r) (b : Bool) : Regs.InRdbyte r₀ (r.setPrev b) :=
  ⟨h.reads, h.seq, h.kept.hum, h.kept.temp, h.kept.valid, h.kept.out⟩

theorem Regs.RdbyteEnded.setPrev {r₀ r : Regs} (h : Regs.RdbyteEnded r₀ r) (b : Bool) :
    Regs.RdbyteEnded r₀ (r.setPrev b) :=
  ⟨h.idle, h.kept.hum, h.kept.temp, h.kept.valid, h.kept.out⟩

/-- The most ticks left to a RDBYTE: those of a SAMPLE in the last byte of its frame. -/
def rdbyteTicksLeft (c : Config) (r : Regs) : Nat := ticksLeft c { r with bytecnt := 4 }

/-- The bit slots after the current one are those of the byte. -/
theorem rdbyteTicksLeft_eq (c : Config) (r : Regs) :
    rdbyteTicksLeft c r = r.tmr + 1 + ticksAfter c (7 - r.bitcnt.toNat) r.phase := by
  have hslots : Regs.slotsAfter { r with bytecnt := 4 } = 7 - r.bitcnt.toNat := Nat.sub_add_eq 39 32 _
  rw [rdbyteTicksLeft, ticksLeft, hslots]

/-- The end of the byte and a timeout end a RDBYTE; the other phase rules go on, and with bounded waits each of them
lowers the ticks left (R128, R129, R132, R142). -/
theorem PhaseEffect.inRdbyte_or_ended {c : Config} {lin : Bool} {r₀ r r' : Regs} (h : PhaseEffect c lin r r')
    (hc : c.ok = true) (hw : 0 < c.waitTimeout) (hs : Regs.InRdbyte r₀ r) :
    Regs.RdbyteEnded r₀ r' ∨ (Regs.InRdbyte r₀ r' ∧ rdbyteTicksLeft c r' < rdbyteTicksLeft c r) := by
  obtain ⟨-, -, -, -, ⟨hsample, -⟩, -⟩ := (config_ok_iff c).1 hc
  obtain ⟨hreads, hseq, hhum, htemp, hvalid, hout⟩ := hs
  cases h with
  | rest hp | lowEnds hp | highGoesOn hp | highEnds hp | firstSampleFails hp | firstSamplePasses hp
  | secondSampleFails hp | responseGoesOn hp | responseEnds hp => simp [hp, Phase.readsBits] at hreads
  | commits _ _ _ hq | nextByte _ _ _ hq => simp [hseq] at hq
  | waitHangs _ hzero => omega
  | byteEnds => exact .inl ⟨rfl, hhum, htemp, hvalid, hout⟩
  | timesOut => exact .inl ⟨rfl, hhum, htemp, by simpa [hseq] using hvalid, hout⟩
  | count _ ht | waitCounts _ _ ht =>
    refine .inr ⟨⟨hreads, hseq, hhum, htemp, hvalid, hout⟩, ?_⟩
    simp only [rdbyteTicksLeft_eq]
    omega
  | rises hp | samples hp =>
    refine .inr ⟨⟨rfl, hseq, hhum, htemp, hvalid, hout⟩, ?_⟩
    simp only [rdbyteTicksLeft_eq, hp, ticksAfter, wload_eq]
    omega
  | slotEnds hp _ hb =>
    refine .inr ⟨⟨rfl, hseq, hhum, htemp, hvalid, hout⟩, ticksLeft_next_slot hw hp rfl rfl ?_⟩
    simp only [Regs.slotsAfter]
    bv_omega

/-- Settles O36: the acceptance leaves at most the ticks of eight bit slots, and every tick lowers them until the end. -/
theorem rdbyteEndsWithTimeout : Obligations.RdbyteEndsWithTimeout := by
  intro s hacc hw hres
  have hbegin : Regs.InRdbyte s.regs ((acceptRegs s.cfg s.regs .rdbyte).setPrev (s.lineAt 0)) :=
    ⟨rfl, rfl, rfl, rfl, rfl, rfl⟩
  have hticks : rdbyteTicksLeft s.cfg ((acceptRegs s.cfg s.regs .rdbyte).setPrev (s.lineAt 0)) ≤
      8 * (2 * s.cfg.waitTimeout + s.cfg.tSample) := by
    have hbits : (0 : BitVec 3).toNat = 0 := rfl
    simp only [rdbyteTicksLeft_eq, Regs.setPrev, acceptRegs, ticksAfter, slotTicks, wload_eq, hbits]
    omega
  obtain ⟨k, t, hk, hrun, hend⟩ := exists_busyRun (aim := Regs.RdbyteEnded s.regs) (rdbyteTicksLeft s.cfg) hacc.legal
    (fun r hr => ⟨hr.busy, by rw [rdbyteTicksLeft_eq]; omega⟩)
    (fun lin r r' hr heff => (heff.inRdbyte_or_ended hacc.legal hw hr).imp (fun h => h.setPrev lin)
      fun ⟨h, hlt⟩ => ⟨h.setPrev lin, hlt⟩)
    _ (s.nextTick ((acceptRegs s.cfg s.regs .rdbyte).setPrev (s.lineAt 0))) rfl (noReset_nextTick hres _) hbegin hticks
  obtain ⟨hidle, hhum, htemp, hvalid, hout⟩ := hend
  exact ⟨k + 1, t.regs, by omega, endsAt_of_run (accept_step hacc) hrun hidle, hhum, htemp, hvalid, hout⟩

end Sys2Proof.Machine
end

section
/-! PROOFS. The family spec/42_actuator.md: what the comparators and the multiplexer answer (R160 to R162), what ACT
reads and writes (R163, R164), and that exactly one tier is shown (R166). -/

namespace Sys2Proof.Machine

/-! ### The comparators -/

section Comparators
variable {c c' : Config} {t : Byte} {soil : Soil}

theorem tier_eq_safe_iff : tier c t = .safe ↔ t.toNat < c.tempLimit.toNat := by
  unfold tier
  split_ifs with hbelow <;> simp [hbelow]

theorem tier_eq_warning_iff : tier c t = .warning ↔ t.toNat = c.tempLimit.toNat := by
  unfold tier
  split_ifs with hbelow hequal
  · simp [hbelow.ne]
  · simp [hequal]
  · simp [hequal]

/-- Of two unsigned numbers that are neither below nor equal, the first is above (R166). -/
theorem tier_eq_danger_iff : tier c t = .danger ↔ t.toNat > c.tempLimit.toNat := by
  unfold tier
  split_ifs with hbelow hequal
  · simp [hbelow.le]
  · simp [hequal]
  · simp only [true_iff]
    omega

theorem pump_eq_true_iff : pump c soil = true ↔ soil.toNat > c.soilThreshold.toNat := decide_eq_true_iff

/-- The function reads no parameter but its two thresholds (R160, R161). -/
theorem actuate_congr (hs : c.soilThreshold = c'.soilThreshold) (hl : c.tempLimit = c'.tempLimit) (t : Byte)
    (soil : Soil) : actuate c t soil = actuate c' t soil := by
  simp only [actuate, pump, tier, hs, hl]

end Comparators

/-! ### The lines of the multiplexer -/

/-- The four indicator lines, tier by tier (R162). -/
theorem indicators_lines (τ : Tier) :
    ((indicators τ).getLsbD 0 = true ↔ τ = .safe) ∧ ((indicators τ).getLsbD 1 = true ↔ τ = .warning) ∧
      ((indicators τ).getLsbD 2 = true ↔ τ = .danger) ∧ ((indicators τ).getLsbD 3 = true ↔ τ = .danger) := by
  cases τ <;> decide

/-- One of the first three lines is on, red and buzzer agree, and the four make one of three patterns (R166). -/
theorem indicators_oneHot (τ : Tier) :
    ((indicators τ).getLsbD 0).toNat + ((indicators τ).getLsbD 1).toNat + ((indicators τ).getLsbD 2).toNat = 1 ∧
      (indicators τ).getLsbD 2 = (indicators τ).getLsbD 3 ∧
      ((indicators τ).toNat = 0b0001 ∨ (indicators τ).toNat = 0b0010 ∨ (indicators τ).toNat = 0b1100) := by
  cases τ <;> decide

section Lines
variable (c : Config) (t : Byte) (soil : Soil)

/-- Below bit 4 the multiplexer shows the tier's indicator lines, whatever the pump does (R162). -/
theorem actuate_getLsbD_indicator {i : Nat} (hi : i < 4) :
    (actuate c t soil).getLsbD i = (indicators (tier c t)).getLsbD i := by
  rw [actuate, BitVec.getLsbD_append, if_pos hi]

/-- Bit 4 is the pump, whatever the tier is (R162). -/
theorem actuate_getLsbD_pump : (actuate c t soil).getLsbD 4 = pump c soil := by
  rw [actuate, BitVec.getLsbD_append, if_neg (Nat.lt_irrefl 4)]
  simp

/-- Bits 3:0 as a number. -/
theorem actuate_toNat_mod : (actuate c t soil).toNat % 16 = (indicators (tier c t)).toNat := by
  unfold actuate
  cases pump c soil <;> cases tier c t <;> decide

end Lines

/-- Settles O19: bits 3:0 are the indicator lines of a tier, and the default limit separates 24, 25 and 26. -/
theorem exactlyOneTierIsShown : Obligations.ExactlyOneTierIsShown := by
  constructor
  · intro c t soil
    simp (disch := decide) only [actuate_getLsbD_indicator, actuate_toNat_mod]
    exact indicators_oneHot (tier c t)
  · intro soil
    have hbelow : tier Config.defaults 24 = .safe := by decide
    have hequal : tier Config.defaults 25 = .warning := by decide
    have habove : tier Config.defaults 26 = .danger := by decide
    simp only [actuate_toNat_mod, hbelow, hequal, habove]
    decide

/-! ### ACT -/

/-- Settles O17: the row of ACT in `acceptRegs`, each line of OUT traced to its comparator. -/
theorem actLatchesComparisons : Obligations.ActLatchesComparisons := by
  intro s soil
  obtain ⟨hsafe, hwarning, hdanger, hbuzzer⟩ := indicators_lines (tier s.cfg s.regs.temp)
  refine ⟨actuate s.cfg s.regs.temp soil, exec_eq (.act soil) s, ?_, ?_, ?_, ?_, ?_⟩
  · rw [actuate_getLsbD_indicator _ _ _ (by decide), hsafe, tier_eq_safe_iff]
  · rw [actuate_getLsbD_indicator _ _ _ (by decide), hwarning, tier_eq_warning_iff]
  · rw [actuate_getLsbD_indicator _ _ _ (by decide), hdanger, tier_eq_danger_iff]
  · rw [actuate_getLsbD_indicator _ _ _ (by decide), hbuzzer, tier_eq_danger_iff]
  · rw [actuate_getLsbD_pump, pump_eq_true_iff]

/-- Settles O18: ACT writes the actuator function of TEMP and the operand, which depends on the two thresholds alone. -/
theorem actReadsTempAndSoilOnly : Obligations.ActReadsTempAndSoilOnly := by
  intro s s' soil hs hl htemp
  have hout : actuate s.cfg s.regs.temp soil = actuate s'.cfg s'.regs.temp soil := by
    rw [htemp, actuate_congr hs hl]
  exact ⟨_, _, exec_eq (.act soil) s, exec_eq (.act soil) s', hout, rfl⟩

end Sys2Proof.Machine
end
